-- ==== Sys2Proof/Word.lean ====
section
/-! DEFINITION. Word.lean: the word types, the names of the block's two caches, two buses, two worlds,
three access classes and two backing stores, and the fixed geometry (00_scope R3, R8). -/

namespace Sys2Proof

/-- A byte of a bus access or of a backing store (20_memory R51). -/
abbrev Byte := BitVec 8

/-- A register word, an MMU entry word or a virtual bus address: 32 bits (20_memory R53). -/
abbrev Word := BitVec 32

/-- A cache identifier `c`, one of I and D (00_scope R3). -/
inductive CacheId where
  | icache
  | dcache
deriving DecidableEq, Repr

/-- A bus `b`, one of IBUS and DBUS (00_scope R3). -/
inductive Bus where
  | ibus
  | dbus
deriving DecidableEq, Repr

/-- `cache(IBUS) = I`, `cache(DBUS) = D` (00_scope R3). -/
def Bus.cache : Bus → CacheId
  | .ibus => .icache
  | .dbus => .dcache

/-- The bus a cache serves: the inverse of `Bus.cache` (00_scope R3). -/
def CacheId.bus : CacheId → Bus
  | .icache => .ibus
  | .dcache => .dbus

/-- The world of a bus request: world 0 is trusted, world 1 untrusted (30_encoding R68). -/
inductive World where
  | world0
  | world1
deriving DecidableEq, Repr

/-- The operation class of a bus request: 0 read, 1 write, 2 execute (30_encoding R68). Class 3 is reserved and
has no name here: the decoder refuses it. -/
inductive AccessClass where
  | read
  | write
  | fetch
deriving DecidableEq, Repr

/-- A backing store (20_memory R58). -/
inductive StoreId where
  | flash
  | psram
deriving DecidableEq, Repr

/-- The two sections of a lock or of an autoload mechanism (10_state R21, R23). -/
inductive Sec where
  | s0
  | s1
deriving DecidableEq, Repr

/-- The three sections of a permission table (10_state R27). -/
inductive PmsSec where
  | k0
  | k1
  | k2
deriving DecidableEq, Repr

/-- `N_ENTRIES` (00_scope section 4). -/
abbrev nEntries : Nat := 512

/-- `PAGE_SIZE`: 64 KiB (00_scope section 4); also `PMS_GRANULE`. -/
abbrev pageSize : Nat := 65536

/-- `WINDOW_SIZE`: 32 MiB (00_scope section 4). -/
abbrev windowSize : Nat := 33554432

end Sys2Proof
end

