-- ==== Sys2Proof/Config.lean ====
section
/-! DEFINITION. Config.lean: the parameters of 00_scope section 4 (`Params`), the check R9 puts on them, the defaults
the spec names, and the free values (opaque constants, no body): the bytes drawn by an out-of-range store read and
the bytes the decryption unit answers. -/

namespace Sys2Proof

/-- `PMS_RESET` of one bus: three boundaries and three attributes (10_state R27). -/
structure PmsReset where
  bound0 : BitVec 12
  bound1 : BitVec 12
  bound2 : BitVec 12
  attr0 : BitVec 8
  attr1 : BitVec 8
  attr2 : BitVec 8
deriving DecidableEq, Repr

/-- The OPEN parameters of 00_scope section 4. They are configuration: no step changes them. The model takes them as
arguments by holding them in `State.cfg` (log 2). `STORE_MAP(c, p)` is one bit for each page, set when PSRAM backs
the page; `FLASH_CRYPT` is the list of the encrypted flash ranges (start, size). -/
structure Params where
  /-- `REG_BASE`. Register-port offsets are relative to it, so no rule of the block reads it (log 14). -/
  regBase : Word
  /-- `IBUS_BASE`. -/
  ibusBase : Word
  /-- `DBUS_BASE`. -/
  dbusBase : Word
  /-- `FLASH_SIZE` in bytes. -/
  flashSize : Nat
  /-- `PSRAM_SIZE` in bytes. -/
  psramSize : Nat
  /-- `STORE_MAP(I, p)`: bit p set when PSRAM backs page p of the IBUS window. -/
  ipsramPages : BitVec 512
  /-- `STORE_MAP(D, p)`: bit p set when PSRAM backs page p of the DBUS window. -/
  dpsramPages : BitVec 512
  /-- `FLASH_CRYPT`: the ranges (start, size) of flash that are marked encrypted. -/
  flashCrypt : List (Nat × Nat)
  /-- `MAX_ACCESS_LEN`. -/
  maxAccessLen : Nat
  /-- `PMS_RESET` of IBUS. -/
  ipmsReset : PmsReset
  /-- `PMS_RESET` of DBUS. -/
  dpmsReset : PmsReset
deriving DecidableEq, Repr

/-- Bits 3 and 7 of every attribute byte are 0 (10_state R27, R42). -/
def PmsReset.reservedClear (r : PmsReset) : Bool :=
  r.attr0 &&& 0x88#8 == 0#8 && r.attr1 &&& 0x88#8 == 0#8 && r.attr2 &&& 0x88#8 == 0#8

/-- The constraint of 00_scope R9 on the window bases, and the ranges the parameter table of 00_scope section 4 gives
the other parameters. A configuration that breaks it is refused by `step`. -/
def Params.valid (p : Params) : Bool :=
  p.ibusBase.toNat % pageSize == 0 && p.dbusBase.toNat % pageSize == 0 &&
  decide (p.ibusBase.toNat + windowSize ≤ 2 ^ 32) && decide (p.dbusBase.toNat + windowSize ≤ 2 ^ 32) &&
  (decide (p.ibusBase.toNat + windowSize ≤ p.dbusBase.toNat) ||
    decide (p.dbusBase.toNat + windowSize ≤ p.ibusBase.toNat)) &&
  decide (0 < p.flashSize) && decide (0 < p.psramSize) &&
  decide (1 ≤ p.maxAccessLen) && decide (p.maxAccessLen ≤ pageSize) &&
  p.ipmsReset.reservedClear && p.dpmsReset.reservedClear

/-- The default `PMS_RESET`: every boundary 0xFFF, every attribute 0x77 (00_scope section 4). -/
def PmsReset.default : PmsReset :=
  { bound0 := 0xFFF#12, bound1 := 0xFFF#12, bound2 := 0xFFF#12
    attr0 := 0x77#8, attr1 := 0x77#8, attr2 := 0x77#8 }

/-- The test-vector defaults of 00_scope section 4 and 95_test_vectors. DESIGN CHOICE, log 2: the values
`State.reset` carries; every other value is a state too. -/
def Params.default : Params :=
  { regBase := 0#32
    ibusBase := 0x42000000#32
    dbusBase := 0x3C000000#32
    flashSize := 0x1000000
    psramSize := 0x1000000
    ipsramPages := 0#512
    dpsramPages := 0#512
    flashCrypt := []
    maxAccessLen := 64
    ipmsReset := PmsReset.default
    dpmsReset := PmsReset.default }

/-- FREE VALUE (20_memory R59, log 6): byte k that a store read of a range not inside its store returns, by the number
of the draw, the store, the offset and the length. -/
opaque Config.drawnByte : (draw : Nat) → StoreId → (off len k : Nat) → Byte

/-- FREE VALUE (20_memory R60, log 7): byte k of `Decrypt(off, len)` over the given flash contents. -/
opaque Config.decryptByte : (flash : List Host.Cell) → (off len k : Nat) → Byte

end Sys2Proof
end

