-- ==== Sys2Proof/Syntax.lean ====
section
/-! DEFINITION. Syntax.lean: `Instr`, one constructor for each row of spec/opcode_table.json (96 rows).

The block has no instruction words (00_scope section 1): an instruction is one operation of a port. A register-write
row carries the whole written word `v`, because the transaction that belongs to the row carries it (30_encoding R76);
a bus write carries its bytes, whose number is the access's length (42_translation R98). -/

namespace Sys2Proof

/-- One operation of the block: one row of spec/opcode_table.json. -/
inductive Instr where
  /-- REG_READ (R80): `rd off`. -/
  | regRead (off : BitVec 12)
  /-- REG_WRITE (R81): `wr off, v`. -/
  | regWrite (off : BitVec 12) (v : Word)
  /-- MMU_READ (R87): `rd 0x800 + 4*i`. -/
  | mmuRead (i : BitVec 9)
  /-- MMU_WRITE (R86): `wr 0x800 + 4*i, v`. -/
  | mmuWrite (i : BitVec 9) (v : Word)
  /-- MMU_GET (R89): the MMU port operation GET of any natural index. -/
  | mmuGet (index : Nat)
  /-- MMU_SET (R88): the MMU port operation SET. -/
  | mmuSet (index : Nat) (page : BitVec 8) (invalid : Bool)
  /-- DCACHE_ENABLE (R109): `wr 0x000, v` with v[0] = 1. -/
  | dcacheEnable (v : Word)
  /-- DCACHE_DISABLE (R110): `wr 0x000, v` with v[0] = 0. -/
  | dcacheDisable (v : Word)
  /-- DCACHE_SHUT (R114): `wr 0x000, v`. -/
  | dcacheShut (v : Word)
  /-- DCACHE_WRAP (R115): `wr 0x000, v`. -/
  | dcacheWrap (v : Word)
  /-- DCACHE_FREEZE (R111): `wr 0x004, v` with v[0] = 1. -/
  | dcacheFreeze (v : Word)
  /-- DCACHE_UNFREEZE (R112): `wr 0x004, v` with v[0] = 0. -/
  | dcacheUnfreeze (v : Word)
  /-- DCACHE_FREEZE_MODE (R113): `wr 0x004, v`. -/
  | dcacheFreezeMode (v : Word)
  /-- DCACHE_LOCK0 (R120): `wr 0x008, v` with v[0] = 1. -/
  | dcacheLock0 (v : Word)
  /-- DCACHE_UNLOCK0 (R121): `wr 0x008, v` with v[0] = 0. -/
  | dcacheUnlock0 (v : Word)
  /-- DCACHE_LOCK1 (R120): `wr 0x008, v` with v[2] = 1. -/
  | dcacheLock1 (v : Word)
  /-- DCACHE_UNLOCK1 (R121): `wr 0x008, v` with v[2] = 0. -/
  | dcacheUnlock1 (v : Word)
  /-- DCACHE_LOCK0_ADDR_WRITE (R35): `wr 0x00C, v`. -/
  | dcacheLock0AddrWrite (v : Word)
  /-- DCACHE_LOCK0_SIZE_WRITE (R35): `wr 0x010, v`. -/
  | dcacheLock0SizeWrite (v : Word)
  /-- DCACHE_LOCK1_ADDR_WRITE (R35): `wr 0x014, v`. -/
  | dcacheLock1AddrWrite (v : Word)
  /-- DCACHE_LOCK1_SIZE_WRITE (R35): `wr 0x018, v`. -/
  | dcacheLock1SizeWrite (v : Word)
  /-- DCACHE_PRELOAD (R122): `wr 0x01C, v` with v[0] = 1. -/
  | dcachePreload (v : Word)
  /-- DCACHE_PRELOAD_ADDR_WRITE (R35): `wr 0x020, v`. -/
  | dcachePreloadAddrWrite (v : Word)
  /-- DCACHE_PRELOAD_SIZE_WRITE (R35): `wr 0x024, v`. -/
  | dcachePreloadSizeWrite (v : Word)
  /-- DCACHE_AUTOLOAD_ARM0 (R123): `wr 0x028, v` with v[0] = 1. -/
  | dcacheAutoloadArm0 (v : Word)
  /-- DCACHE_AUTOLOAD_DISARM0 (R124): `wr 0x028, v` with v[0] = 0. -/
  | dcacheAutoloadDisarm0 (v : Word)
  /-- DCACHE_AUTOLOAD_ARM1 (R123): `wr 0x028, v` with v[2] = 1. -/
  | dcacheAutoloadArm1 (v : Word)
  /-- DCACHE_AUTOLOAD_DISARM1 (R124): `wr 0x028, v` with v[2] = 0. -/
  | dcacheAutoloadDisarm1 (v : Word)
  /-- DCACHE_AUTOLOAD_SCT0_ADDR_WRITE (R35): `wr 0x02C, v`. -/
  | dcacheAutoloadSct0AddrWrite (v : Word)
  /-- DCACHE_AUTOLOAD_SCT0_SIZE_WRITE (R35): `wr 0x030, v`. -/
  | dcacheAutoloadSct0SizeWrite (v : Word)
  /-- DCACHE_AUTOLOAD_SCT1_ADDR_WRITE (R35): `wr 0x034, v`. -/
  | dcacheAutoloadSct1AddrWrite (v : Word)
  /-- DCACHE_AUTOLOAD_SCT1_SIZE_WRITE (R35): `wr 0x038, v`. -/
  | dcacheAutoloadSct1SizeWrite (v : Word)
  /-- DCACHE_INVALIDATE (R126): `wr 0x03C, v` with v[0] = 1. -/
  | dcacheInvalidate (v : Word)
  /-- DCACHE_CNT_CLR (R131): `wr 0x040, v` with v[0] = 1. -/
  | dcacheCntClr (v : Word)
  /-- DCACHE_ACS_CNT_READ (R132): `rd 0x044`. -/
  | dcacheAcsCntRead
  /-- DCACHE_MISS_CNT_READ (R132): `rd 0x048`. -/
  | dcacheMissCntRead
  /-- DCACHE_PSRAM_MISS_CNT_READ (R132): `rd 0x04C`. -/
  | dcachePsramMissCntRead
  /-- DBUS_PMS_SET_BOUNDARY0 (R105): `wr 0x050, v`. -/
  | dbusPmsSetBoundary0 (v : Word)
  /-- DBUS_PMS_SET_BOUNDARY1 (R105): `wr 0x054, v`. -/
  | dbusPmsSetBoundary1 (v : Word)
  /-- DBUS_PMS_SET_BOUNDARY2 (R105): `wr 0x058, v`. -/
  | dbusPmsSetBoundary2 (v : Word)
  /-- DBUS_PMS_SET_ATTR0 (R106): `wr 0x05C, v`. -/
  | dbusPmsSetAttr0 (v : Word)
  /-- DBUS_PMS_SET_ATTR1 (R106): `wr 0x060, v`. -/
  | dbusPmsSetAttr1 (v : Word)
  /-- DBUS_PMS_SET_ATTR2 (R106): `wr 0x064, v`. -/
  | dbusPmsSetAttr2 (v : Word)
  /-- DBUS_PMS_LOCK (R107): `wr 0x068, v`. -/
  | dbusPmsLock (v : Word)
  /-- ICACHE_ENABLE (R109): `wr 0x080, v` with v[0] = 1. -/
  | icacheEnable (v : Word)
  /-- ICACHE_DISABLE (R110): `wr 0x080, v` with v[0] = 0. -/
  | icacheDisable (v : Word)
  /-- ICACHE_SHUT (R114): `wr 0x080, v`. -/
  | icacheShut (v : Word)
  /-- ICACHE_WRAP (R115): `wr 0x080, v`. -/
  | icacheWrap (v : Word)
  /-- ICACHE_FREEZE (R111): `wr 0x084, v` with v[0] = 1. -/
  | icacheFreeze (v : Word)
  /-- ICACHE_UNFREEZE (R112): `wr 0x084, v` with v[0] = 0. -/
  | icacheUnfreeze (v : Word)
  /-- ICACHE_FREEZE_MODE (R113): `wr 0x084, v`. -/
  | icacheFreezeMode (v : Word)
  /-- ICACHE_LOCK0 (R120): `wr 0x088, v` with v[0] = 1. -/
  | icacheLock0 (v : Word)
  /-- ICACHE_UNLOCK0 (R121): `wr 0x088, v` with v[0] = 0. -/
  | icacheUnlock0 (v : Word)
  /-- ICACHE_LOCK1 (R120): `wr 0x088, v` with v[2] = 1. -/
  | icacheLock1 (v : Word)
  /-- ICACHE_UNLOCK1 (R121): `wr 0x088, v` with v[2] = 0. -/
  | icacheUnlock1 (v : Word)
  /-- ICACHE_LOCK0_ADDR_WRITE (R35): `wr 0x08C, v`. -/
  | icacheLock0AddrWrite (v : Word)
  /-- ICACHE_LOCK0_SIZE_WRITE (R35): `wr 0x090, v`. -/
  | icacheLock0SizeWrite (v : Word)
  /-- ICACHE_LOCK1_ADDR_WRITE (R35): `wr 0x094, v`. -/
  | icacheLock1AddrWrite (v : Word)
  /-- ICACHE_LOCK1_SIZE_WRITE (R35): `wr 0x098, v`. -/
  | icacheLock1SizeWrite (v : Word)
  /-- ICACHE_PRELOAD (R122): `wr 0x09C, v` with v[0] = 1. -/
  | icachePreload (v : Word)
  /-- ICACHE_PRELOAD_ADDR_WRITE (R35): `wr 0x0A0, v`. -/
  | icachePreloadAddrWrite (v : Word)
  /-- ICACHE_PRELOAD_SIZE_WRITE (R35): `wr 0x0A4, v`. -/
  | icachePreloadSizeWrite (v : Word)
  /-- ICACHE_AUTOLOAD_ARM0 (R123): `wr 0x0A8, v` with v[0] = 1. -/
  | icacheAutoloadArm0 (v : Word)
  /-- ICACHE_AUTOLOAD_DISARM0 (R124): `wr 0x0A8, v` with v[0] = 0. -/
  | icacheAutoloadDisarm0 (v : Word)
  /-- ICACHE_AUTOLOAD_ARM1 (R123): `wr 0x0A8, v` with v[2] = 1. -/
  | icacheAutoloadArm1 (v : Word)
  /-- ICACHE_AUTOLOAD_DISARM1 (R124): `wr 0x0A8, v` with v[2] = 0. -/
  | icacheAutoloadDisarm1 (v : Word)
  /-- ICACHE_AUTOLOAD_SCT0_ADDR_WRITE (R35): `wr 0x0AC, v`. -/
  | icacheAutoloadSct0AddrWrite (v : Word)
  /-- ICACHE_AUTOLOAD_SCT0_SIZE_WRITE (R35): `wr 0x0B0, v`. -/
  | icacheAutoloadSct0SizeWrite (v : Word)
  /-- ICACHE_AUTOLOAD_SCT1_ADDR_WRITE (R35): `wr 0x0B4, v`. -/
  | icacheAutoloadSct1AddrWrite (v : Word)
  /-- ICACHE_AUTOLOAD_SCT1_SIZE_WRITE (R35): `wr 0x0B8, v`. -/
  | icacheAutoloadSct1SizeWrite (v : Word)
  /-- ICACHE_INVALIDATE (R126): `wr 0x0BC, v` with v[0] = 1. -/
  | icacheInvalidate (v : Word)
  /-- ICACHE_CNT_CLR (R131): `wr 0x0C0, v` with v[0] = 1. -/
  | icacheCntClr (v : Word)
  /-- ICACHE_ACS_CNT_READ (R132): `rd 0x0C4`. -/
  | icacheAcsCntRead
  /-- ICACHE_MISS_CNT_READ (R132): `rd 0x0C8`. -/
  | icacheMissCntRead
  /-- ICACHE_PSRAM_MISS_CNT_READ (R132): `rd 0x0CC`. -/
  | icachePsramMissCntRead
  /-- IBUS_PMS_SET_BOUNDARY0 (R105): `wr 0x0D0, v`. -/
  | ibusPmsSetBoundary0 (v : Word)
  /-- IBUS_PMS_SET_BOUNDARY1 (R105): `wr 0x0D4, v`. -/
  | ibusPmsSetBoundary1 (v : Word)
  /-- IBUS_PMS_SET_BOUNDARY2 (R105): `wr 0x0D8, v`. -/
  | ibusPmsSetBoundary2 (v : Word)
  /-- IBUS_PMS_SET_ATTR0 (R106): `wr 0x0DC, v`. -/
  | ibusPmsSetAttr0 (v : Word)
  /-- IBUS_PMS_SET_ATTR1 (R106): `wr 0x0E0, v`. -/
  | ibusPmsSetAttr1 (v : Word)
  /-- IBUS_PMS_SET_ATTR2 (R106): `wr 0x0E4, v`. -/
  | ibusPmsSetAttr2 (v : Word)
  /-- IBUS_PMS_LOCK (R107): `wr 0x0E8, v`. -/
  | ibusPmsLock (v : Word)
  /-- INT_ST_READ (R44): `rd 0x100`. -/
  | intStRead
  /-- INT_CLR (R145): `wr 0x100, v`. -/
  | intClr (v : Word)
  /-- INT_ENA_READ (R45): `rd 0x104`. -/
  | intEnaRead
  /-- INT_ENA (R146): `wr 0x104, v`. -/
  | intEna (v : Word)
  /-- FAULT_VADDR_READ (R136): `rd 0x108`. -/
  | faultVaddrRead
  /-- FAULT_INFO_READ (R136): `rd 0x10C`. -/
  | faultInfoRead
  /-- IBUS_READ (R97): a bus request of this bus and class in world w at va, of len bytes. -/
  | ibusRead (w : World) (va : Word) (len : Nat)
  /-- IBUS_WRITE (R98): a bus request of this bus and class in world w at va, of the bytes wdata. -/
  | ibusWrite (w : World) (va : Word) (wdata : List Byte)
  /-- IBUS_FETCH (R99): a bus request of this bus and class in world w at va, of len bytes. -/
  | ibusFetch (w : World) (va : Word) (len : Nat)
  /-- DBUS_READ (R100): a bus request of this bus and class in world w at va, of len bytes. -/
  | dbusRead (w : World) (va : Word) (len : Nat)
  /-- DBUS_WRITE (R101): a bus request of this bus and class in world w at va, of the bytes wdata. -/
  | dbusWrite (w : World) (va : Word) (wdata : List Byte)
  /-- DBUS_FETCH (R102): a bus request of this bus and class in world w at va, of len bytes. -/
  | dbusFetch (w : World) (va : Word) (len : Nat)
  /-- EVICT (R127): the environment evicts page p of cache c. -/
  | evict (c : CacheId) (p : BitVec 9)
  /-- RESET (R156): the reset input. -/
  | reset
deriving DecidableEq, Repr

end Sys2Proof
end

