-- ==== Sys2Proof/WellFormed.lean ====
section
/-! DEFINITION. WellFormed.lean: which terms of `Instr` stand for a transaction of their row (30_encoding R76): the
bits of the written word that the row's mask fixes have the row's value, and a register-port offset is a multiple of 4
(20_memory R54). -/

namespace Sys2Proof

/-- A register-port offset is a multiple of 4 (20_memory R54). -/
def alignedOffset (off : BitVec 12) : Bool :=
  !off.getLsbD 0 && !off.getLsbD 1

/-- The operands belong to the instruction's row of spec/opcode_table.json. -/
def WellFormed : Instr → Bool
  | .regRead off => alignedOffset off
  | .regWrite off _ => alignedOffset off
  | .mmuRead _ => true
  | .mmuWrite _ _ => true
  | .mmuGet _ => true
  | .mmuSet _ _ _ => true
  | .dcacheEnable v => v.getLsbD 0
  | .dcacheDisable v => !v.getLsbD 0
  | .dcacheShut _ => true
  | .dcacheWrap _ => true
  | .dcacheFreeze v => v.getLsbD 0
  | .dcacheUnfreeze v => !v.getLsbD 0
  | .dcacheFreezeMode _ => true
  | .dcacheLock0 v => v.getLsbD 0
  | .dcacheUnlock0 v => !v.getLsbD 0
  | .dcacheLock1 v => v.getLsbD 2
  | .dcacheUnlock1 v => !v.getLsbD 2
  | .dcacheLock0AddrWrite _ => true
  | .dcacheLock0SizeWrite _ => true
  | .dcacheLock1AddrWrite _ => true
  | .dcacheLock1SizeWrite _ => true
  | .dcachePreload v => v.getLsbD 0
  | .dcachePreloadAddrWrite _ => true
  | .dcachePreloadSizeWrite _ => true
  | .dcacheAutoloadArm0 v => v.getLsbD 0
  | .dcacheAutoloadDisarm0 v => !v.getLsbD 0
  | .dcacheAutoloadArm1 v => v.getLsbD 2
  | .dcacheAutoloadDisarm1 v => !v.getLsbD 2
  | .dcacheAutoloadSct0AddrWrite _ => true
  | .dcacheAutoloadSct0SizeWrite _ => true
  | .dcacheAutoloadSct1AddrWrite _ => true
  | .dcacheAutoloadSct1SizeWrite _ => true
  | .dcacheInvalidate v => v.getLsbD 0
  | .dcacheCntClr v => v.getLsbD 0
  | .dcacheAcsCntRead => true
  | .dcacheMissCntRead => true
  | .dcachePsramMissCntRead => true
  | .dbusPmsSetBoundary0 _ => true
  | .dbusPmsSetBoundary1 _ => true
  | .dbusPmsSetBoundary2 _ => true
  | .dbusPmsSetAttr0 _ => true
  | .dbusPmsSetAttr1 _ => true
  | .dbusPmsSetAttr2 _ => true
  | .dbusPmsLock _ => true
  | .icacheEnable v => v.getLsbD 0
  | .icacheDisable v => !v.getLsbD 0
  | .icacheShut _ => true
  | .icacheWrap _ => true
  | .icacheFreeze v => v.getLsbD 0
  | .icacheUnfreeze v => !v.getLsbD 0
  | .icacheFreezeMode _ => true
  | .icacheLock0 v => v.getLsbD 0
  | .icacheUnlock0 v => !v.getLsbD 0
  | .icacheLock1 v => v.getLsbD 2
  | .icacheUnlock1 v => !v.getLsbD 2
  | .icacheLock0AddrWrite _ => true
  | .icacheLock0SizeWrite _ => true
  | .icacheLock1AddrWrite _ => true
  | .icacheLock1SizeWrite _ => true
  | .icachePreload v => v.getLsbD 0
  | .icachePreloadAddrWrite _ => true
  | .icachePreloadSizeWrite _ => true
  | .icacheAutoloadArm0 v => v.getLsbD 0
  | .icacheAutoloadDisarm0 v => !v.getLsbD 0
  | .icacheAutoloadArm1 v => v.getLsbD 2
  | .icacheAutoloadDisarm1 v => !v.getLsbD 2
  | .icacheAutoloadSct0AddrWrite _ => true
  | .icacheAutoloadSct0SizeWrite _ => true
  | .icacheAutoloadSct1AddrWrite _ => true
  | .icacheAutoloadSct1SizeWrite _ => true
  | .icacheInvalidate v => v.getLsbD 0
  | .icacheCntClr v => v.getLsbD 0
  | .icacheAcsCntRead => true
  | .icacheMissCntRead => true
  | .icachePsramMissCntRead => true
  | .ibusPmsSetBoundary0 _ => true
  | .ibusPmsSetBoundary1 _ => true
  | .ibusPmsSetBoundary2 _ => true
  | .ibusPmsSetAttr0 _ => true
  | .ibusPmsSetAttr1 _ => true
  | .ibusPmsSetAttr2 _ => true
  | .ibusPmsLock _ => true
  | .intStRead => true
  | .intClr _ => true
  | .intEnaRead => true
  | .intEna _ => true
  | .faultVaddrRead => true
  | .faultInfoRead => true
  | .ibusRead _ _ _ => true
  | .ibusWrite _ _ _ => true
  | .ibusFetch _ _ _ => true
  | .dbusRead _ _ _ => true
  | .dbusWrite _ _ _ => true
  | .dbusFetch _ _ _ => true
  | .evict _ _ => true
  | .reset => true

end Sys2Proof
end

