-- ==== Sys2Proof/Decode.lean ====
section
/-! DEFINITION. Decode.lean: the transactions of the ports (30_encoding R66, R67, R68), the register map (10_state
R31, R47, R48), the decoder from a transaction to the instruction, total and rejecting by name, then the encoder, the
table row of each instruction, and `decodeTableWord`.

The block has no instruction words; its encodings are the transaction formats of its ports (30_encoding, opening).
Several rows of the table can match one register write (R76). The decoder then names it after ONE of them by the
convention of `blockWriteRow` (DESIGN CHOICE, log 3): safe, because the meaning of each row that matches is the whole
write. -/

namespace Sys2Proof

/-- What a port receives: a register-port transaction (R66), an MMU-port transaction (R67), a bus request (R68), the
environment's EVICT (R127) or the reset input (R156). `width` is the width in bits of a register transaction, which
must be 32 (20_memory R54, log 10). -/
inductive Transaction where
  | rd (width : Nat) (off : BitVec 12)
  | wr (width : Nat) (off : BitVec 12) (wdata : Word)
  | mmuGet (index : Nat)
  | mmuSet (index : Nat) (page : BitVec 8) (invalid : Bool)
  | bus (attr4 : BitVec 4) (va : Word) (len : Nat) (wdata : List Byte)
  | evict (c : CacheId) (p : BitVec 9)
  | reset
deriving DecidableEq, Repr

/-- Why the decoder rejects a transaction. Each is the spec's own "refuse" (00_scope R11); all are safe. -/
inductive Reject where
  /-- A register transaction of a width other than 32 bits (20_memory R54). -/
  | registerWidth
  /-- A register transaction at an offset that is not a multiple of 4 (20_memory R54). -/
  | unalignedOffset
  /-- A bus request of class 3 (30_encoding R68). -/
  | reservedClass
  /-- A bus request whose write data is not `len` bytes, or that carries write data in class R or X: no request in the
  format of 30_encoding R68 (log 10). -/
  | wdataLength
deriving DecidableEq, Repr

/-- The registers of a per-cache block (10_state R31). -/
inductive BlockReg where
  | ctrl
  | freeze
  | lockCtrl
  | lockAddr (s : Sec)
  | lockSize (s : Sec)
  | preloadCtrl
  | preloadAddr
  | preloadSize
  | autoloadCtrl
  | autoloadAddr (s : Sec)
  | autoloadSize (s : Sec)
  | syncCtrl
  | cntCtrl
  | acsCnt
  | missCnt
  | psramMissCnt
  | pmsBoundary (k : PmsSec)
  | pmsAttr (k : PmsSec)
  | pmsLock
deriving DecidableEq, Repr

/-- Every register the port reaches (10_state R31, R47). -/
inductive Reg where
  | block (c : CacheId) (r : BlockReg)
  | intSt
  | intEna
  | faultVaddr
  | faultInfo
  | mmuEntry (i : BitVec 9)
deriving DecidableEq, Repr

/-- The per-cache block by relative offset (10_state R31); any other offset is unmapped (R48). -/
def blockReg (rel : Nat) : Option BlockReg :=
  match rel with
  | 0x00 => some .ctrl
  | 0x04 => some .freeze
  | 0x08 => some .lockCtrl
  | 0x0C => some (.lockAddr .s0)
  | 0x10 => some (.lockSize .s0)
  | 0x14 => some (.lockAddr .s1)
  | 0x18 => some (.lockSize .s1)
  | 0x1C => some .preloadCtrl
  | 0x20 => some .preloadAddr
  | 0x24 => some .preloadSize
  | 0x28 => some .autoloadCtrl
  | 0x2C => some (.autoloadAddr .s0)
  | 0x30 => some (.autoloadSize .s0)
  | 0x34 => some (.autoloadAddr .s1)
  | 0x38 => some (.autoloadSize .s1)
  | 0x3C => some .syncCtrl
  | 0x40 => some .cntCtrl
  | 0x44 => some .acsCnt
  | 0x48 => some .missCnt
  | 0x4C => some .psramMissCnt
  | 0x50 => some (.pmsBoundary .k0)
  | 0x54 => some (.pmsBoundary .k1)
  | 0x58 => some (.pmsBoundary .k2)
  | 0x5C => some (.pmsAttr .k0)
  | 0x60 => some (.pmsAttr .k1)
  | 0x64 => some (.pmsAttr .k2)
  | 0x68 => some .pmsLock
  | _ => none

/-- The shared block at 0x100 (10_state R31); any other offset is unmapped (R48). -/
def sharedReg (off : Nat) : Option Reg :=
  match off with
  | 0x100 => some .intSt
  | 0x104 => some .intEna
  | 0x108 => some .faultVaddr
  | 0x10C => some .faultInfo
  | _ => none

/-- The register at an aligned offset: the DCACHE block at 0x000, the ICACHE block shifted by
`ICACHE_BLOCK_SHIFT = 0x080`, the shared block, and the MMU window 0x800 to 0xFFF whose word at `0x800 + 4*i` is entry
i (10_state R31, R47). `none` is an unmapped offset (R48). -/
def regAt (off : BitVec 12) : Option Reg :=
  if off.getLsbD 11 then some (.mmuEntry (off.extractLsb' 2 9))
  else if off.toNat < 0x080 then (blockReg off.toNat).map (.block .dcache)
  else if off.toNat < 0x100 then (blockReg (off.toNat - 0x080)).map (.block .icache)
  else sharedReg off.toNat

/-- The offset of MMU entry i, `0x800 + 4*i` (10_state R47). -/
def mmuOffset (i : BitVec 9) : BitVec 12 := 1#1 ++ i ++ 0#2

/-- The instruction a write to a per-cache register is named after (30_encoding R74, R76). Where several rows match
(CTRL, FREEZE, LOCK_CTRL, AUTOLOAD_CTRL) the convention is: CTRL after SHUT if v[1], else WRAP if v[2], else
ENABLE or DISABLE by v[0]; FREEZE after FREEZE_MODE if v[1], else FREEZE or UNFREEZE by v[0]; LOCK_CTRL and
AUTOLOAD_CTRL after section 1 by v[2] if v[3] is set (its DONE bit, which the write ignores), else after LOCK or ARM of
section 0 if v[0], else after that of section 1 if v[2], else after UNLOCK or DISARM of section 0 (log 3). A write that
no command row matches is REG_WRITE. -/
def blockWriteRow (c : CacheId) (r : BlockReg) (off : BitVec 12) (v : Word) : Instr :=
  match c, r with
  | .dcache, .ctrl =>
    if v.getLsbD 1 then .dcacheShut v else if v.getLsbD 2 then .dcacheWrap v
    else if v.getLsbD 0 then .dcacheEnable v else .dcacheDisable v
  | .dcache, .freeze =>
    if v.getLsbD 1 then .dcacheFreezeMode v else if v.getLsbD 0 then .dcacheFreeze v else .dcacheUnfreeze v
  | .dcache, .lockCtrl =>
    if v.getLsbD 3 then (if v.getLsbD 2 then .dcacheLock1 v else .dcacheUnlock1 v)
    else if v.getLsbD 0 then .dcacheLock0 v
    else (if v.getLsbD 2 then .dcacheLock1 v else .dcacheUnlock0 v)
  | .dcache, .lockAddr .s0 => .dcacheLock0AddrWrite v
  | .dcache, .lockSize .s0 => .dcacheLock0SizeWrite v
  | .dcache, .lockAddr .s1 => .dcacheLock1AddrWrite v
  | .dcache, .lockSize .s1 => .dcacheLock1SizeWrite v
  | .dcache, .autoloadCtrl =>
    if v.getLsbD 3 then (if v.getLsbD 2 then .dcacheAutoloadArm1 v else .dcacheAutoloadDisarm1 v)
    else if v.getLsbD 0 then .dcacheAutoloadArm0 v
    else (if v.getLsbD 2 then .dcacheAutoloadArm1 v else .dcacheAutoloadDisarm0 v)
  | .dcache, .autoloadAddr .s0 => .dcacheAutoloadSct0AddrWrite v
  | .dcache, .autoloadSize .s0 => .dcacheAutoloadSct0SizeWrite v
  | .dcache, .autoloadAddr .s1 => .dcacheAutoloadSct1AddrWrite v
  | .dcache, .autoloadSize .s1 => .dcacheAutoloadSct1SizeWrite v
  | .dcache, .preloadCtrl => if v.getLsbD 0 then .dcachePreload v else .regWrite off v
  | .dcache, .preloadAddr => .dcachePreloadAddrWrite v
  | .dcache, .preloadSize => .dcachePreloadSizeWrite v
  | .dcache, .syncCtrl => if v.getLsbD 0 then .dcacheInvalidate v else .regWrite off v
  | .dcache, .cntCtrl => if v.getLsbD 0 then .dcacheCntClr v else .regWrite off v
  | .dcache, .pmsBoundary .k0 => .dbusPmsSetBoundary0 v
  | .dcache, .pmsBoundary .k1 => .dbusPmsSetBoundary1 v
  | .dcache, .pmsBoundary .k2 => .dbusPmsSetBoundary2 v
  | .dcache, .pmsAttr .k0 => .dbusPmsSetAttr0 v
  | .dcache, .pmsAttr .k1 => .dbusPmsSetAttr1 v
  | .dcache, .pmsAttr .k2 => .dbusPmsSetAttr2 v
  | .dcache, .pmsLock => .dbusPmsLock v
  | .dcache, .acsCnt => .regWrite off v
  | .dcache, .missCnt => .regWrite off v
  | .dcache, .psramMissCnt => .regWrite off v
  | .icache, .ctrl =>
    if v.getLsbD 1 then .icacheShut v else if v.getLsbD 2 then .icacheWrap v
    else if v.getLsbD 0 then .icacheEnable v else .icacheDisable v
  | .icache, .freeze =>
    if v.getLsbD 1 then .icacheFreezeMode v else if v.getLsbD 0 then .icacheFreeze v else .icacheUnfreeze v
  | .icache, .lockCtrl =>
    if v.getLsbD 3 then (if v.getLsbD 2 then .icacheLock1 v else .icacheUnlock1 v)
    else if v.getLsbD 0 then .icacheLock0 v
    else (if v.getLsbD 2 then .icacheLock1 v else .icacheUnlock0 v)
  | .icache, .lockAddr .s0 => .icacheLock0AddrWrite v
  | .icache, .lockSize .s0 => .icacheLock0SizeWrite v
  | .icache, .lockAddr .s1 => .icacheLock1AddrWrite v
  | .icache, .lockSize .s1 => .icacheLock1SizeWrite v
  | .icache, .autoloadCtrl =>
    if v.getLsbD 3 then (if v.getLsbD 2 then .icacheAutoloadArm1 v else .icacheAutoloadDisarm1 v)
    else if v.getLsbD 0 then .icacheAutoloadArm0 v
    else (if v.getLsbD 2 then .icacheAutoloadArm1 v else .icacheAutoloadDisarm0 v)
  | .icache, .autoloadAddr .s0 => .icacheAutoloadSct0AddrWrite v
  | .icache, .autoloadSize .s0 => .icacheAutoloadSct0SizeWrite v
  | .icache, .autoloadAddr .s1 => .icacheAutoloadSct1AddrWrite v
  | .icache, .autoloadSize .s1 => .icacheAutoloadSct1SizeWrite v
  | .icache, .preloadCtrl => if v.getLsbD 0 then .icachePreload v else .regWrite off v
  | .icache, .preloadAddr => .icachePreloadAddrWrite v
  | .icache, .preloadSize => .icachePreloadSizeWrite v
  | .icache, .syncCtrl => if v.getLsbD 0 then .icacheInvalidate v else .regWrite off v
  | .icache, .cntCtrl => if v.getLsbD 0 then .icacheCntClr v else .regWrite off v
  | .icache, .pmsBoundary .k0 => .ibusPmsSetBoundary0 v
  | .icache, .pmsBoundary .k1 => .ibusPmsSetBoundary1 v
  | .icache, .pmsBoundary .k2 => .ibusPmsSetBoundary2 v
  | .icache, .pmsAttr .k0 => .ibusPmsSetAttr0 v
  | .icache, .pmsAttr .k1 => .ibusPmsSetAttr1 v
  | .icache, .pmsAttr .k2 => .ibusPmsSetAttr2 v
  | .icache, .pmsLock => .ibusPmsLock v
  | .icache, .acsCnt => .regWrite off v
  | .icache, .missCnt => .regWrite off v
  | .icache, .psramMissCnt => .regWrite off v

/-- The instruction a register write is (30_encoding R74). -/
def writeRow (reg : Option Reg) (off : BitVec 12) (v : Word) : Instr :=
  match reg with
  | some (.block c r) => blockWriteRow c r off v
  | some .intSt => .intClr v
  | some .intEna => .intEna v
  | some (.mmuEntry i) => .mmuWrite i v
  | some .faultVaddr => .regWrite off v
  | some .faultInfo => .regWrite off v
  | none => .regWrite off v

/-- The instruction a register read is: a counter, status, enable, fault or MMU-window read has a row of its own, any
other read is REG_READ (30_encoding R74, 46 R132). -/
def readRow (reg : Option Reg) (off : BitVec 12) : Instr :=
  match reg with
  | some (.block .dcache .acsCnt) => .dcacheAcsCntRead
  | some (.block .dcache .missCnt) => .dcacheMissCntRead
  | some (.block .dcache .psramMissCnt) => .dcachePsramMissCntRead
  | some (.block .icache .acsCnt) => .icacheAcsCntRead
  | some (.block .icache .missCnt) => .icacheMissCntRead
  | some (.block .icache .psramMissCnt) => .icachePsramMissCntRead
  | some (.block _ _) => .regRead off
  | some .intSt => .intStRead
  | some .intEna => .intEnaRead
  | some .faultVaddr => .faultVaddrRead
  | some .faultInfo => .faultInfoRead
  | some (.mmuEntry i) => .mmuRead i
  | none => .regRead off

/-- The world bit of a bus request, `attr4[2]` (30_encoding R68). -/
def worldOf (attr4 : BitVec 4) : World :=
  if attr4.getLsbD 2 then .world1 else .world0

/-- The class of a bus request, `attr4[1:0]`; 3 is reserved (30_encoding R68). -/
def classOf (attr4 : BitVec 4) : Option AccessClass :=
  match attr4.getLsbD 1, attr4.getLsbD 0 with
  | false, false => some .read
  | false, true => some .write
  | true, false => some .fetch
  | true, true => none

/-- A bus request (30_encoding R68): class 3 is refused; a read or fetch carries no data; a write carries `len`
bytes. -/
def decodeBus (attr4 : BitVec 4) (va : Word) (len : Nat) (wdata : List Byte) : Except Reject Instr :=
  match classOf attr4 with
  | none => .error .reservedClass
  | some .read =>
    if wdata = [] then
      .ok (if attr4.getLsbD 3 then .dbusRead (worldOf attr4) va len else .ibusRead (worldOf attr4) va len)
    else .error .wdataLength
  | some .write =>
    if wdata.length = len then
      .ok (if attr4.getLsbD 3 then .dbusWrite (worldOf attr4) va wdata else .ibusWrite (worldOf attr4) va wdata)
    else .error .wdataLength
  | some .fetch =>
    if wdata = [] then
      .ok (if attr4.getLsbD 3 then .dbusFetch (worldOf attr4) va len else .ibusFetch (worldOf attr4) va len)
    else .error .wdataLength

/-- The checks every register transaction passes first (20_memory R54). -/
def checkRegister (width : Nat) (off : BitVec 12) (i : Instr) : Except Reject Instr :=
  if width ≠ 32 then .error .registerWidth
  else if alignedOffset off then .ok i
  else .error .unalignedOffset

/-- The decoder: total on every transaction; it rejects by name. -/
def decode (t : Transaction) : Except Reject Instr :=
  match t with
  | .rd width off => checkRegister width off (readRow (regAt off) off)
  | .wr width off wdata => checkRegister width off (writeRow (regAt off) off wdata)
  | .mmuGet index => .ok (.mmuGet index)
  | .mmuSet index page invalid => .ok (.mmuSet index page invalid)
  | .bus attr4 va len wdata => decodeBus attr4 va len wdata
  | .evict c p => .ok (.evict c p)
  | .reset => .ok .reset

/-! ## The encoder -/

/-- `attr4 = {bus, world, class}` (30_encoding R68). -/
def attr4 (b : Bus) (w : World) (k : AccessClass) : BitVec 4 :=
  (match b with | .ibus => 0b0000#4 | .dbus => 0b1000#4) |||
  (match w with | .world0 => 0b0000#4 | .world1 => 0b0100#4) |||
  (match k with | .read => 0b0000#4 | .write => 0b0001#4 | .fetch => 0b0010#4)

/-- The transaction of an instruction (30_encoding R66 to R68, R74). -/
def encode : Instr → Transaction
  | .regRead off => .rd 32 off
  | .regWrite off v => .wr 32 off v
  | .mmuRead i => .rd 32 (mmuOffset i)
  | .mmuWrite i v => .wr 32 (mmuOffset i) v
  | .mmuGet index => .mmuGet index
  | .mmuSet index page invalid => .mmuSet index page invalid
  | .dcacheEnable v => .wr 32 0x000#12 v
  | .dcacheDisable v => .wr 32 0x000#12 v
  | .dcacheShut v => .wr 32 0x000#12 v
  | .dcacheWrap v => .wr 32 0x000#12 v
  | .dcacheFreeze v => .wr 32 0x004#12 v
  | .dcacheUnfreeze v => .wr 32 0x004#12 v
  | .dcacheFreezeMode v => .wr 32 0x004#12 v
  | .dcacheLock0 v => .wr 32 0x008#12 v
  | .dcacheUnlock0 v => .wr 32 0x008#12 v
  | .dcacheLock1 v => .wr 32 0x008#12 v
  | .dcacheUnlock1 v => .wr 32 0x008#12 v
  | .dcacheLock0AddrWrite v => .wr 32 0x00C#12 v
  | .dcacheLock0SizeWrite v => .wr 32 0x010#12 v
  | .dcacheLock1AddrWrite v => .wr 32 0x014#12 v
  | .dcacheLock1SizeWrite v => .wr 32 0x018#12 v
  | .dcachePreload v => .wr 32 0x01C#12 v
  | .dcachePreloadAddrWrite v => .wr 32 0x020#12 v
  | .dcachePreloadSizeWrite v => .wr 32 0x024#12 v
  | .dcacheAutoloadArm0 v => .wr 32 0x028#12 v
  | .dcacheAutoloadDisarm0 v => .wr 32 0x028#12 v
  | .dcacheAutoloadArm1 v => .wr 32 0x028#12 v
  | .dcacheAutoloadDisarm1 v => .wr 32 0x028#12 v
  | .dcacheAutoloadSct0AddrWrite v => .wr 32 0x02C#12 v
  | .dcacheAutoloadSct0SizeWrite v => .wr 32 0x030#12 v
  | .dcacheAutoloadSct1AddrWrite v => .wr 32 0x034#12 v
  | .dcacheAutoloadSct1SizeWrite v => .wr 32 0x038#12 v
  | .dcacheInvalidate v => .wr 32 0x03C#12 v
  | .dcacheCntClr v => .wr 32 0x040#12 v
  | .dcacheAcsCntRead => .rd 32 0x044#12
  | .dcacheMissCntRead => .rd 32 0x048#12
  | .dcachePsramMissCntRead => .rd 32 0x04C#12
  | .dbusPmsSetBoundary0 v => .wr 32 0x050#12 v
  | .dbusPmsSetBoundary1 v => .wr 32 0x054#12 v
  | .dbusPmsSetBoundary2 v => .wr 32 0x058#12 v
  | .dbusPmsSetAttr0 v => .wr 32 0x05C#12 v
  | .dbusPmsSetAttr1 v => .wr 32 0x060#12 v
  | .dbusPmsSetAttr2 v => .wr 32 0x064#12 v
  | .dbusPmsLock v => .wr 32 0x068#12 v
  | .icacheEnable v => .wr 32 0x080#12 v
  | .icacheDisable v => .wr 32 0x080#12 v
  | .icacheShut v => .wr 32 0x080#12 v
  | .icacheWrap v => .wr 32 0x080#12 v
  | .icacheFreeze v => .wr 32 0x084#12 v
  | .icacheUnfreeze v => .wr 32 0x084#12 v
  | .icacheFreezeMode v => .wr 32 0x084#12 v
  | .icacheLock0 v => .wr 32 0x088#12 v
  | .icacheUnlock0 v => .wr 32 0x088#12 v
  | .icacheLock1 v => .wr 32 0x088#12 v
  | .icacheUnlock1 v => .wr 32 0x088#12 v
  | .icacheLock0AddrWrite v => .wr 32 0x08C#12 v
  | .icacheLock0SizeWrite v => .wr 32 0x090#12 v
  | .icacheLock1AddrWrite v => .wr 32 0x094#12 v
  | .icacheLock1SizeWrite v => .wr 32 0x098#12 v
  | .icachePreload v => .wr 32 0x09C#12 v
  | .icachePreloadAddrWrite v => .wr 32 0x0A0#12 v
  | .icachePreloadSizeWrite v => .wr 32 0x0A4#12 v
  | .icacheAutoloadArm0 v => .wr 32 0x0A8#12 v
  | .icacheAutoloadDisarm0 v => .wr 32 0x0A8#12 v
  | .icacheAutoloadArm1 v => .wr 32 0x0A8#12 v
  | .icacheAutoloadDisarm1 v => .wr 32 0x0A8#12 v
  | .icacheAutoloadSct0AddrWrite v => .wr 32 0x0AC#12 v
  | .icacheAutoloadSct0SizeWrite v => .wr 32 0x0B0#12 v
  | .icacheAutoloadSct1AddrWrite v => .wr 32 0x0B4#12 v
  | .icacheAutoloadSct1SizeWrite v => .wr 32 0x0B8#12 v
  | .icacheInvalidate v => .wr 32 0x0BC#12 v
  | .icacheCntClr v => .wr 32 0x0C0#12 v
  | .icacheAcsCntRead => .rd 32 0x0C4#12
  | .icacheMissCntRead => .rd 32 0x0C8#12
  | .icachePsramMissCntRead => .rd 32 0x0CC#12
  | .ibusPmsSetBoundary0 v => .wr 32 0x0D0#12 v
  | .ibusPmsSetBoundary1 v => .wr 32 0x0D4#12 v
  | .ibusPmsSetBoundary2 v => .wr 32 0x0D8#12 v
  | .ibusPmsSetAttr0 v => .wr 32 0x0DC#12 v
  | .ibusPmsSetAttr1 v => .wr 32 0x0E0#12 v
  | .ibusPmsSetAttr2 v => .wr 32 0x0E4#12 v
  | .ibusPmsLock v => .wr 32 0x0E8#12 v
  | .intStRead => .rd 32 0x100#12
  | .intClr v => .wr 32 0x100#12 v
  | .intEnaRead => .rd 32 0x104#12
  | .intEna v => .wr 32 0x104#12 v
  | .faultVaddrRead => .rd 32 0x108#12
  | .faultInfoRead => .rd 32 0x10C#12
  | .ibusRead w va len => .bus (attr4 .ibus w .read) va len []
  | .ibusWrite w va wdata => .bus (attr4 .ibus w .write) va wdata.length wdata
  | .ibusFetch w va len => .bus (attr4 .ibus w .fetch) va len []
  | .dbusRead w va len => .bus (attr4 .dbus w .read) va len []
  | .dbusWrite w va wdata => .bus (attr4 .dbus w .write) va wdata.length wdata
  | .dbusFetch w va len => .bus (attr4 .dbus w .fetch) va len []
  | .evict c p => .evict c p
  | .reset => .reset

/-- A register read that has no row of its own but REG_READ. -/
def genericRead (reg : Option Reg) : Bool :=
  match reg with
  | none => true
  | some (.block _ .acsCnt) => false
  | some (.block _ .missCnt) => false
  | some (.block _ .psramMissCnt) => false
  | some (.block _ _) => true
  | some .intSt => false
  | some .intEna => false
  | some .faultVaddr => false
  | some .faultInfo => false
  | some (.mmuEntry _) => false

/-- A register write that has no row of its own but REG_WRITE: an unmapped or read-only register, or a trigger
register whose trigger bit is written 0. -/
def genericWrite (reg : Option Reg) (v : Word) : Bool :=
  match reg with
  | none => true
  | some (.block _ .acsCnt) => true
  | some (.block _ .missCnt) => true
  | some (.block _ .psramMissCnt) => true
  | some (.block _ .preloadCtrl) => !v.getLsbD 0
  | some (.block _ .syncCtrl) => !v.getLsbD 0
  | some (.block _ .cntCtrl) => !v.getLsbD 0
  | some (.block _ _) => false
  | some .intSt => false
  | some .intEna => false
  | some .faultVaddr => true
  | some .faultInfo => true
  | some (.mmuEntry _) => false

/-- The decoder's naming convention as a property of the instruction: of the rows that match a transaction, this is
the one the decoder names it after (log 3). -/
def primary : Instr → Bool
  | .regRead off => genericRead (regAt off)
  | .regWrite off v => genericWrite (regAt off) v
  | .mmuRead _ => true
  | .mmuWrite _ _ => true
  | .mmuGet _ => true
  | .mmuSet _ _ _ => true
  | .dcacheEnable v => !v.getLsbD 1 && !v.getLsbD 2
  | .dcacheDisable v => !v.getLsbD 1 && !v.getLsbD 2
  | .dcacheShut v => v.getLsbD 1
  | .dcacheWrap v => !v.getLsbD 1 && v.getLsbD 2
  | .dcacheFreeze v => !v.getLsbD 1
  | .dcacheUnfreeze v => !v.getLsbD 1
  | .dcacheFreezeMode v => v.getLsbD 1
  | .dcacheLock0 v => !v.getLsbD 3
  | .dcacheUnlock0 v => !v.getLsbD 3 && !v.getLsbD 2
  | .dcacheLock1 v => v.getLsbD 3 || !v.getLsbD 0
  | .dcacheUnlock1 v => v.getLsbD 3
  | .dcacheLock0AddrWrite _ => true
  | .dcacheLock0SizeWrite _ => true
  | .dcacheLock1AddrWrite _ => true
  | .dcacheLock1SizeWrite _ => true
  | .dcachePreload _ => true
  | .dcachePreloadAddrWrite _ => true
  | .dcachePreloadSizeWrite _ => true
  | .dcacheAutoloadArm0 v => !v.getLsbD 3
  | .dcacheAutoloadDisarm0 v => !v.getLsbD 3 && !v.getLsbD 2
  | .dcacheAutoloadArm1 v => v.getLsbD 3 || !v.getLsbD 0
  | .dcacheAutoloadDisarm1 v => v.getLsbD 3
  | .dcacheAutoloadSct0AddrWrite _ => true
  | .dcacheAutoloadSct0SizeWrite _ => true
  | .dcacheAutoloadSct1AddrWrite _ => true
  | .dcacheAutoloadSct1SizeWrite _ => true
  | .dcacheInvalidate _ => true
  | .dcacheCntClr _ => true
  | .dcacheAcsCntRead => true
  | .dcacheMissCntRead => true
  | .dcachePsramMissCntRead => true
  | .dbusPmsSetBoundary0 _ => true
  | .dbusPmsSetBoundary1 _ => true
  | .dbusPmsSetBoundary2 _ => true
  | .dbusPmsSetAttr0 _ => true
  | .dbusPmsSetAttr1 _ => true
  | .dbusPmsSetAttr2 _ => true
  | .dbusPmsLock _ => true
  | .icacheEnable v => !v.getLsbD 1 && !v.getLsbD 2
  | .icacheDisable v => !v.getLsbD 1 && !v.getLsbD 2
  | .icacheShut v => v.getLsbD 1
  | .icacheWrap v => !v.getLsbD 1 && v.getLsbD 2
  | .icacheFreeze v => !v.getLsbD 1
  | .icacheUnfreeze v => !v.getLsbD 1
  | .icacheFreezeMode v => v.getLsbD 1
  | .icacheLock0 v => !v.getLsbD 3
  | .icacheUnlock0 v => !v.getLsbD 3 && !v.getLsbD 2
  | .icacheLock1 v => v.getLsbD 3 || !v.getLsbD 0
  | .icacheUnlock1 v => v.getLsbD 3
  | .icacheLock0AddrWrite _ => true
  | .icacheLock0SizeWrite _ => true
  | .icacheLock1AddrWrite _ => true
  | .icacheLock1SizeWrite _ => true
  | .icachePreload _ => true
  | .icachePreloadAddrWrite _ => true
  | .icachePreloadSizeWrite _ => true
  | .icacheAutoloadArm0 v => !v.getLsbD 3
  | .icacheAutoloadDisarm0 v => !v.getLsbD 3 && !v.getLsbD 2
  | .icacheAutoloadArm1 v => v.getLsbD 3 || !v.getLsbD 0
  | .icacheAutoloadDisarm1 v => v.getLsbD 3
  | .icacheAutoloadSct0AddrWrite _ => true
  | .icacheAutoloadSct0SizeWrite _ => true
  | .icacheAutoloadSct1AddrWrite _ => true
  | .icacheAutoloadSct1SizeWrite _ => true
  | .icacheInvalidate _ => true
  | .icacheCntClr _ => true
  | .icacheAcsCntRead => true
  | .icacheMissCntRead => true
  | .icachePsramMissCntRead => true
  | .ibusPmsSetBoundary0 _ => true
  | .ibusPmsSetBoundary1 _ => true
  | .ibusPmsSetBoundary2 _ => true
  | .ibusPmsSetAttr0 _ => true
  | .ibusPmsSetAttr1 _ => true
  | .ibusPmsSetAttr2 _ => true
  | .ibusPmsLock _ => true
  | .intStRead => true
  | .intClr _ => true
  | .intEnaRead => true
  | .intEna _ => true
  | .faultVaddrRead => true
  | .faultInfoRead => true
  | .ibusRead _ _ _ => true
  | .ibusWrite _ _ _ => true
  | .ibusFetch _ _ _ => true
  | .dbusRead _ _ _ => true
  | .dbusWrite _ _ _ => true
  | .dbusFetch _ _ _ => true
  | .evict _ _ => true
  | .reset => true

/-! ## The opcode table -/

/-- The `format` column of spec/opcode_table.json (30_encoding R76). -/
inductive Format where
  | reg
  | mmup
  | bus
  | env
  | reset
deriving DecidableEq, Repr

/-- A row of spec/opcode_table.json: its format, `match` and `mask`. -/
structure Row where
  format : Format
  pattern : Nat
  mask : Nat
deriving DecidableEq, Repr

/-- The format and key of a transaction (30_encoding R76). -/
def Transaction.format : Transaction → Format
  | .rd _ _ => .reg
  | .wr _ _ _ => .reg
  | .mmuGet _ => .mmup
  | .mmuSet _ _ _ => .mmup
  | .bus _ _ _ _ => .bus
  | .evict _ _ => .env
  | .reset => .reset

/-- The key of a transaction: `{kind[44], off[43:32], wdata[31:0]}`, the MMU port's op, or attr4 (30_encoding R76). -/
def Transaction.key : Transaction → Nat
  | .rd _ off => (0#1 ++ off ++ 0#32).toNat
  | .wr _ off wdata => (1#1 ++ off ++ wdata).toNat
  | .mmuGet _ => 0
  | .mmuSet _ _ _ => 1
  | .bus attr4 _ _ _ => attr4.toNat
  | .evict _ _ => 0
  | .reset => 0

/-- A transaction belongs to a row when `key & mask = match` (30_encoding R76). -/
def Transaction.inRow (t : Transaction) (r : Row) : Bool :=
  t.format == r.format && (t.key &&& r.mask) == r.pattern

/-- Each instruction's row, copied from spec/opcode_table.json. -/
def rowOf : Instr → Row
  | .regRead _ => ⟨.reg, 0x0, 0x100000000000⟩
  | .regWrite _ _ => ⟨.reg, 0x100000000000, 0x100000000000⟩
  | .mmuRead _ => ⟨.reg, 0x80000000000, 0x180000000000⟩
  | .mmuWrite _ _ => ⟨.reg, 0x180000000000, 0x180000000000⟩
  | .mmuGet _ => ⟨.mmup, 0x0, 0x1⟩
  | .mmuSet _ _ _ => ⟨.mmup, 0x1, 0x1⟩
  | .dcacheEnable _ => ⟨.reg, 0x100000000001, 0x1fff00000001⟩
  | .dcacheDisable _ => ⟨.reg, 0x100000000000, 0x1fff00000001⟩
  | .dcacheShut _ => ⟨.reg, 0x100000000000, 0x1fff00000000⟩
  | .dcacheWrap _ => ⟨.reg, 0x100000000000, 0x1fff00000000⟩
  | .dcacheFreeze _ => ⟨.reg, 0x100400000001, 0x1fff00000001⟩
  | .dcacheUnfreeze _ => ⟨.reg, 0x100400000000, 0x1fff00000001⟩
  | .dcacheFreezeMode _ => ⟨.reg, 0x100400000000, 0x1fff00000000⟩
  | .dcacheLock0 _ => ⟨.reg, 0x100800000001, 0x1fff00000001⟩
  | .dcacheUnlock0 _ => ⟨.reg, 0x100800000000, 0x1fff00000001⟩
  | .dcacheLock1 _ => ⟨.reg, 0x100800000004, 0x1fff00000004⟩
  | .dcacheUnlock1 _ => ⟨.reg, 0x100800000000, 0x1fff00000004⟩
  | .dcacheLock0AddrWrite _ => ⟨.reg, 0x100c00000000, 0x1fff00000000⟩
  | .dcacheLock0SizeWrite _ => ⟨.reg, 0x101000000000, 0x1fff00000000⟩
  | .dcacheLock1AddrWrite _ => ⟨.reg, 0x101400000000, 0x1fff00000000⟩
  | .dcacheLock1SizeWrite _ => ⟨.reg, 0x101800000000, 0x1fff00000000⟩
  | .dcachePreload _ => ⟨.reg, 0x101c00000001, 0x1fff00000001⟩
  | .dcachePreloadAddrWrite _ => ⟨.reg, 0x102000000000, 0x1fff00000000⟩
  | .dcachePreloadSizeWrite _ => ⟨.reg, 0x102400000000, 0x1fff00000000⟩
  | .dcacheAutoloadArm0 _ => ⟨.reg, 0x102800000001, 0x1fff00000001⟩
  | .dcacheAutoloadDisarm0 _ => ⟨.reg, 0x102800000000, 0x1fff00000001⟩
  | .dcacheAutoloadArm1 _ => ⟨.reg, 0x102800000004, 0x1fff00000004⟩
  | .dcacheAutoloadDisarm1 _ => ⟨.reg, 0x102800000000, 0x1fff00000004⟩
  | .dcacheAutoloadSct0AddrWrite _ => ⟨.reg, 0x102c00000000, 0x1fff00000000⟩
  | .dcacheAutoloadSct0SizeWrite _ => ⟨.reg, 0x103000000000, 0x1fff00000000⟩
  | .dcacheAutoloadSct1AddrWrite _ => ⟨.reg, 0x103400000000, 0x1fff00000000⟩
  | .dcacheAutoloadSct1SizeWrite _ => ⟨.reg, 0x103800000000, 0x1fff00000000⟩
  | .dcacheInvalidate _ => ⟨.reg, 0x103c00000001, 0x1fff00000001⟩
  | .dcacheCntClr _ => ⟨.reg, 0x104000000001, 0x1fff00000001⟩
  | .dcacheAcsCntRead => ⟨.reg, 0x4400000000, 0x1fff00000000⟩
  | .dcacheMissCntRead => ⟨.reg, 0x4800000000, 0x1fff00000000⟩
  | .dcachePsramMissCntRead => ⟨.reg, 0x4c00000000, 0x1fff00000000⟩
  | .dbusPmsSetBoundary0 _ => ⟨.reg, 0x105000000000, 0x1fff00000000⟩
  | .dbusPmsSetBoundary1 _ => ⟨.reg, 0x105400000000, 0x1fff00000000⟩
  | .dbusPmsSetBoundary2 _ => ⟨.reg, 0x105800000000, 0x1fff00000000⟩
  | .dbusPmsSetAttr0 _ => ⟨.reg, 0x105c00000000, 0x1fff00000000⟩
  | .dbusPmsSetAttr1 _ => ⟨.reg, 0x106000000000, 0x1fff00000000⟩
  | .dbusPmsSetAttr2 _ => ⟨.reg, 0x106400000000, 0x1fff00000000⟩
  | .dbusPmsLock _ => ⟨.reg, 0x106800000000, 0x1fff00000000⟩
  | .icacheEnable _ => ⟨.reg, 0x108000000001, 0x1fff00000001⟩
  | .icacheDisable _ => ⟨.reg, 0x108000000000, 0x1fff00000001⟩
  | .icacheShut _ => ⟨.reg, 0x108000000000, 0x1fff00000000⟩
  | .icacheWrap _ => ⟨.reg, 0x108000000000, 0x1fff00000000⟩
  | .icacheFreeze _ => ⟨.reg, 0x108400000001, 0x1fff00000001⟩
  | .icacheUnfreeze _ => ⟨.reg, 0x108400000000, 0x1fff00000001⟩
  | .icacheFreezeMode _ => ⟨.reg, 0x108400000000, 0x1fff00000000⟩
  | .icacheLock0 _ => ⟨.reg, 0x108800000001, 0x1fff00000001⟩
  | .icacheUnlock0 _ => ⟨.reg, 0x108800000000, 0x1fff00000001⟩
  | .icacheLock1 _ => ⟨.reg, 0x108800000004, 0x1fff00000004⟩
  | .icacheUnlock1 _ => ⟨.reg, 0x108800000000, 0x1fff00000004⟩
  | .icacheLock0AddrWrite _ => ⟨.reg, 0x108c00000000, 0x1fff00000000⟩
  | .icacheLock0SizeWrite _ => ⟨.reg, 0x109000000000, 0x1fff00000000⟩
  | .icacheLock1AddrWrite _ => ⟨.reg, 0x109400000000, 0x1fff00000000⟩
  | .icacheLock1SizeWrite _ => ⟨.reg, 0x109800000000, 0x1fff00000000⟩
  | .icachePreload _ => ⟨.reg, 0x109c00000001, 0x1fff00000001⟩
  | .icachePreloadAddrWrite _ => ⟨.reg, 0x10a000000000, 0x1fff00000000⟩
  | .icachePreloadSizeWrite _ => ⟨.reg, 0x10a400000000, 0x1fff00000000⟩
  | .icacheAutoloadArm0 _ => ⟨.reg, 0x10a800000001, 0x1fff00000001⟩
  | .icacheAutoloadDisarm0 _ => ⟨.reg, 0x10a800000000, 0x1fff00000001⟩
  | .icacheAutoloadArm1 _ => ⟨.reg, 0x10a800000004, 0x1fff00000004⟩
  | .icacheAutoloadDisarm1 _ => ⟨.reg, 0x10a800000000, 0x1fff00000004⟩
  | .icacheAutoloadSct0AddrWrite _ => ⟨.reg, 0x10ac00000000, 0x1fff00000000⟩
  | .icacheAutoloadSct0SizeWrite _ => ⟨.reg, 0x10b000000000, 0x1fff00000000⟩
  | .icacheAutoloadSct1AddrWrite _ => ⟨.reg, 0x10b400000000, 0x1fff00000000⟩
  | .icacheAutoloadSct1SizeWrite _ => ⟨.reg, 0x10b800000000, 0x1fff00000000⟩
  | .icacheInvalidate _ => ⟨.reg, 0x10bc00000001, 0x1fff00000001⟩
  | .icacheCntClr _ => ⟨.reg, 0x10c000000001, 0x1fff00000001⟩
  | .icacheAcsCntRead => ⟨.reg, 0xc400000000, 0x1fff00000000⟩
  | .icacheMissCntRead => ⟨.reg, 0xc800000000, 0x1fff00000000⟩
  | .icachePsramMissCntRead => ⟨.reg, 0xcc00000000, 0x1fff00000000⟩
  | .ibusPmsSetBoundary0 _ => ⟨.reg, 0x10d000000000, 0x1fff00000000⟩
  | .ibusPmsSetBoundary1 _ => ⟨.reg, 0x10d400000000, 0x1fff00000000⟩
  | .ibusPmsSetBoundary2 _ => ⟨.reg, 0x10d800000000, 0x1fff00000000⟩
  | .ibusPmsSetAttr0 _ => ⟨.reg, 0x10dc00000000, 0x1fff00000000⟩
  | .ibusPmsSetAttr1 _ => ⟨.reg, 0x10e000000000, 0x1fff00000000⟩
  | .ibusPmsSetAttr2 _ => ⟨.reg, 0x10e400000000, 0x1fff00000000⟩
  | .ibusPmsLock _ => ⟨.reg, 0x10e800000000, 0x1fff00000000⟩
  | .intStRead => ⟨.reg, 0x10000000000, 0x1fff00000000⟩
  | .intClr _ => ⟨.reg, 0x110000000000, 0x1fff00000000⟩
  | .intEnaRead => ⟨.reg, 0x10400000000, 0x1fff00000000⟩
  | .intEna _ => ⟨.reg, 0x110400000000, 0x1fff00000000⟩
  | .faultVaddrRead => ⟨.reg, 0x10800000000, 0x1fff00000000⟩
  | .faultInfoRead => ⟨.reg, 0x10c00000000, 0x1fff00000000⟩
  | .ibusRead _ _ _ => ⟨.bus, 0x0, 0xb⟩
  | .ibusWrite _ _ _ => ⟨.bus, 0x1, 0xb⟩
  | .ibusFetch _ _ _ => ⟨.bus, 0x2, 0xb⟩
  | .dbusRead _ _ _ => ⟨.bus, 0x8, 0xb⟩
  | .dbusWrite _ _ _ => ⟨.bus, 0x9, 0xb⟩
  | .dbusFetch _ _ _ => ⟨.bus, 0xa, 0xb⟩
  | .evict _ _ => ⟨.env, 0x0, 0x0⟩
  | .reset => ⟨.reset, 0x0, 0x0⟩

/-- The transaction of a key of the table given as a number, its operands zero. 45 bits or more are a REG key, 8 bits
or fewer an MMUP key where it has one bit and a BUS key where it has at most four, no bits the reset input
(DESIGN CHOICE, log 4: the table's formats overlap). A REG key of kind RD has wdata 0 (30_encoding R76). -/
def tableTransaction (nbits w : Nat) : Option Transaction :=
  if nbits = 0 then (if w = 0 then some .reset else none)
  else if nbits ≤ 8 then
    if w = 0 then some (.mmuGet 0)
    else if w = 1 then some (.mmuSet 0 0#8 false)
    else if w < 16 then some (.bus (BitVec.ofNat 4 w) 0#32 0 [])
    else none
  else if nbits < 45 then none
  else if w < 2 ^ 44 then
    if w % 2 ^ 32 = 0 then some (.rd 32 (BitVec.ofNat 12 (w / 2 ^ 32))) else none
  else if w < 2 ^ 45 then some (.wr 32 (BitVec.ofNat 12 (w / 2 ^ 32)) (BitVec.ofNat 32 w))
  else none

/-- The instruction the decoder reads from a key of the opcode table (host-fixed name). -/
def decodeTableWord (nbits w : Nat) : Option Instr :=
  match tableTransaction nbits w with
  | none => none
  | some t =>
    match decode t with
    | .ok i => some i
    | .error _ => none

end Sys2Proof
end

