-- ==== Sys2Proof/Machine/State.lean ====
section
/-! DEFINITION. Machine/State.lean: the state of the device exactly as 10_state R15 lists it (`Device`), around it the
environment's two backing stores, the parameters, the list of events the ports receive and the last answer (`State`),
the reasons a step stops, and the state after reset (70_reset_and_hazards R156).

All of it is plain data. The fields of `State` beside `dev`, `flash` and `psram` are the model's own; INVENTORY.md says
so of each. -/

namespace Sys2Proof.Machine

/-- An MMU entry; its 23 reserved bits are no state (10_state R18, 41_mmu_table R85). -/
structure MmuEntry where
  page : BitVec 8
  invalid : Bool
deriving DecidableEq, Repr

/-- Every MMU entry after reset: invalid, page number 0 (10_state R18). -/
def MmuEntry.reset : MmuEntry := { page := 0#8, invalid := true }

/-- The state machine of a cache (10_state R19, 44_cache_state R108). -/
inductive CState where
  | disabled
  | enabled
  | frozen
deriving DecidableEq, Repr

/-- A captured `(start, size)` pair (10_state R21, R23). -/
structure Range where
  start : Word
  size : Word
deriving DecidableEq, Repr

/-- One lock section of a cache (10_state R21). -/
structure LockSection where
  addr : Word
  size : Word
  ena : Bool
  range : Range
deriving DecidableEq, Repr

/-- One autoload section of a cache (10_state R23). -/
structure AutoloadSection where
  addr : Word
  size : Word
  trig : BitVec 2
  ena : Bool
  range : Range
deriving DecidableEq, Repr

/-- The per-cache state of 10_state R15. `resident` holds the 512 residency bits, bit p for page p (R25). -/
structure CacheState where
  cstate : CState
  shut : Bool
  wrap : Bool
  freezeMode : Bool
  lock0 : LockSection
  lock1 : LockSection
  preloadAddr : Word
  preloadSize : Word
  preloadOrder : Bool
  preloadDone : Bool
  al0 : AutoloadSection
  al1 : AutoloadSection
  alOrder : Bool
  invalDone : Bool
  resident : BitVec 512
  acsCnt : Word
  missCnt : Word
  psramMissCnt : Word
deriving DecidableEq, Repr

/-- The permission table of one bus (10_state R27). -/
structure PmsTable where
  bound0 : BitVec 12
  bound1 : BitVec 12
  bound2 : BitVec 12
  attr0 : BitVec 8
  attr1 : BitVec 8
  attr2 : BitVec 8
  lock : BitVec 3
deriving DecidableEq, Repr

/-- The state of one device instance: exactly the record of 10_state R15. -/
structure Device where
  mmu : Vector MmuEntry 512
  icache : CacheState
  dcache : CacheState
  ipms : PmsTable
  dpms : PmsTable
  faultVaddr : Word
  faultCode : BitVec 4
  faultContent : BitVec 10
  intSt : BitVec 11
  intEna : BitVec 11
deriving DecidableEq, Repr

/-- The result an operation gives its caller (00_scope R12). -/
inductive Answer where
  /-- Nothing is returned: a register write, EVICT, RESET. -/
  | nothing
  /-- The word a register read returns. -/
  | word (v : Word)
  /-- `Ok(page_number, invalid)` of MMU_GET. -/
  | entry (page : BitVec 8) (invalid : Bool)
  /-- `Ok`, with the bytes read; empty for a write and for MMU_SET. -/
  | ok (data : List Byte)
  | outOfRange
  | rangeFault
  | permissionFault
  | translationFault
  | shut
  | cacheDisabled
  | frozenWriteRejected
deriving DecidableEq, Repr

/-- What the outside world presents: a transaction of a port, or a write of the environment into its own backing
store between two operations (20_memory R58, log 12). -/
inductive Event where
  | op (t : Transaction)
  | storeWrite (st : StoreId) (off : Nat) (bytes : List Byte)
deriving DecidableEq, Repr

/-- The whole machine: the device, the environment's stores, and the model's own fields. -/
structure State where
  /-- The device instance (10_state R15). -/
  dev : Device
  /-- The flash backing store, in the canonical form of `Memory.wf` (20_memory R58). -/
  flash : List Host.Cell
  /-- The PSRAM backing store, in the same form (20_memory R58). -/
  psram : List Host.Cell
  /-- The model's own: the parameters, changed by no step (log 2). -/
  cfg : Params
  /-- The model's own: the number of the draw that an out-of-range store read makes; `advance` moves it on, but not from an
  event to an equal one (20_memory R57, R59, log 6). -/
  draws : Nat
  /-- The model's own: the events of the total order of 20_memory R61, the program of 10_state R17 (log 1). -/
  program : List Event
  /-- The model's own: the index of the next event (10_state R17, log 1). -/
  position : Nat
  /-- The model's own: what the last operation answered (00_scope R12, log 9). -/
  answer : Answer
deriving DecidableEq, Repr

/-- Why the machine stops with a fault. -/
inductive Fault where
  /-- Raised by `step` when the program holds no event at the current position: the block receives no operation, so it
  takes no step (10_state R17, log 1). Safe: the machine only stops. -/
  | noTransaction
deriving DecidableEq, Repr

/-- Why a step is refused. Each is the spec's own "refuse" or "not enabled": the operation has no meaning there
(00_scope R11). -/
inductive Refusal where
  /-- An arm of `exec` that has no meaning yet; no arm raises it. Safe. -/
  | notModelled (mnemonic : String)
  /-- Raised by `step`: the decoder rejects the transaction (20_memory R54, 30_encoding R68). Safe. -/
  | rejected (r : Reject)
  /-- Raised by REG_READ and REG_WRITE at an offset that is not a multiple of 4 (40_register_file R80, R81). Safe. -/
  | unalignedOffset
  /-- Raised by a bus access whose length is not 1 to MAX_ACCESS_LEN (42_translation R95). Safe. -/
  | accessLength
  /-- Raised by a bus access that crosses a page (20_memory R55, 42_translation R95). Safe. -/
  | pageCrossing
  /-- Raised by EVICT of a page that is not resident or is pinned, or of a frozen cache: the step is not enabled
  (45_lock_preload_autoload R127). Safe. -/
  | evictNotEnabled
  /-- Raised by `step` under parameters that break 00_scope R9 or the parameter table. Safe. -/
  | invalidConfiguration
deriving DecidableEq, Repr

/-- The outcome of one operation or step. -/
abbrev Result := Host.Outcome State Fault Refusal

/-- A section that is not locked, with its registers at 0 (70 R156). -/
def LockSection.reset : LockSection :=
  { addr := 0#32, size := 0#32, ena := false, range := { start := 0#32, size := 0#32 } }

/-- A section that is not armed, with its registers at 0 (70 R156). -/
def AutoloadSection.reset : AutoloadSection :=
  { addr := 0#32, size := 0#32, trig := 0#2, ena := false, range := { start := 0#32, size := 0#32 } }

/-- A cache after reset (70 R156). -/
def CacheState.reset : CacheState :=
  { cstate := .disabled, shut := false, wrap := false, freezeMode := false
    lock0 := LockSection.reset, lock1 := LockSection.reset
    preloadAddr := 0#32, preloadSize := 0#32, preloadOrder := false, preloadDone := false
    al0 := AutoloadSection.reset, al1 := AutoloadSection.reset, alOrder := false
    invalDone := false, resident := 0#512
    acsCnt := 0#32, missCnt := 0#32, psramMissCnt := 0#32 }

/-- A permission table after reset: the values of the parameter PMS_RESET, no lock (70 R156). -/
def PmsTable.reset (r : PmsReset) : PmsTable :=
  { bound0 := r.bound0, bound1 := r.bound1, bound2 := r.bound2
    attr0 := r.attr0, attr1 := r.attr1, attr2 := r.attr2, lock := 0#3 }

/-- The device after reset (70 R156). -/
def Device.reset (p : Params) : Device :=
  { mmu := Vector.replicate 512 MmuEntry.reset
    icache := CacheState.reset, dcache := CacheState.reset
    ipms := PmsTable.reset p.ipmsReset, dpms := PmsTable.reset p.dpmsReset
    faultVaddr := 0#32, faultCode := 0#4, faultContent := 0#10
    intSt := 0#11, intEna := 0#11 }

/-- The machine right after reset, with the default parameters, nothing listed in the stores and no program
(70 R156; log 1, 2, 5, 6, 9). -/
def State.reset : State :=
  { dev := Device.reset Params.default
    flash := [], psram := [], cfg := Params.default, draws := 0
    program := [], position := 0, answer := .nothing }

end Sys2Proof.Machine
end

