-- ==== Sys2Proof/Machine/Ops.lean ====
section
/-! DEFINITION. Machine/Ops.lean: the named operations over the state: the backing stores (20_memory R58, R59, R60),
the parts of the device by cache, bus and section, the MMU table, the status bits, LATCH (60_exceptions R135: the
block's one way of taking a fault) and INT_CLR (R145: its acknowledgement, the only "return", R148), the interrupt
line (R144), and fetching and advancing over the program. -/

namespace Sys2Proof.Machine

/-! ## A backing store as a canonical list of cells -/

/-- What an offset that no cell lists reads as: 0 (DESIGN CHOICE, log 5). -/
def Memory.unlisted : Byte := 0#8

/-- Reads one byte. -/
def Memory.read : List Host.Cell → Nat → Byte
  | [], _ => Memory.unlisted
  | (x, y) :: r, a => if a = x then y else Memory.read r a

/-- Writes one byte and keeps the canonical form: writing what an unlisted offset reads as removes the cell. -/
def Memory.write : List Host.Cell → Nat → Byte → List Host.Cell
  | [], a, b => if b = Memory.unlisted then [] else [(a, b)]
  | (x, y) :: r, a, b =>
    if a < x then (if b = Memory.unlisted then (x, y) :: r else (a, b) :: (x, y) :: r)
    else if a = x then (if b = Memory.unlisted then r else (a, b) :: r)
    else (x, y) :: Memory.write r a b

/-- The canonical form: offsets strictly rising, no cell equal to what an unlisted offset reads as. -/
def Memory.wf : List Host.Cell → Bool
  | [] => true
  | (a, b) :: r => b != Memory.unlisted && r.all (fun cell => decide (a < cell.1)) && Memory.wf r

/-- Every listed offset lies inside a store of the given size. -/
def Memory.below (size : Nat) (m : List Host.Cell) : Bool :=
  m.all (fun cell => decide (cell.1 < size))

/-- The n bytes from `off` upward, in store order (20_memory R53). -/
def Memory.readBytes (m : List Host.Cell) (off n : Nat) : List Byte :=
  (List.range n).map (fun k => Memory.read m (off + k))

/-- Writes the bytes from `off` upward, in store order (20_memory R53). -/
def Memory.writeBytes (m : List Host.Cell) (off : Nat) : List Byte → List Host.Cell
  | [] => m
  | b :: bs => Memory.writeBytes (Memory.write m off b) (off + 1) bs

/-! ## The two stores -/

/-- The contents of a store. -/
def State.store (s : State) : StoreId → List Host.Cell
  | .flash => s.flash
  | .psram => s.psram

/-- Replaces the contents of a store. -/
def State.setStore (s : State) (st : StoreId) (m : List Host.Cell) : State :=
  match st with
  | .flash => { s with flash := m }
  | .psram => { s with psram := m }

/-- The size of a store: FLASH_SIZE or PSRAM_SIZE (00_scope section 4). -/
def storeSize (p : Params) : StoreId → Nat
  | .flash => p.flashSize
  | .psram => p.psramSize

/-- The byte of a store at an offset. -/
def State.byteAt (s : State) (st : StoreId) (off : Nat) : Byte :=
  Memory.read (s.store st) off

/-- The bytes of the current draw for a range of a store (20_memory R59, log 6). -/
def drawnBytes (st : StoreId) (off n : Nat) (s : State) : List Byte :=
  (List.range n).map (fun k => Config.drawnByte s.draws st off n k)

/-- `MemRead(store, off, n)`: the bytes of the store, or, for a range that is not inside it, drawn bytes
(20_memory R58, R59). It changes nothing (R57). -/
def memRead (st : StoreId) (off n : Nat) (s : State) : List Byte :=
  if off + n ≤ storeSize s.cfg st then Memory.readBytes (s.store st) off n else drawnBytes st off n s

/-- `MemWrite(store, off, bytes)`: replaces the bytes; a range that is not inside the store has no effect
(20_memory R58, R59; log 11). -/
def memWrite (st : StoreId) (off : Nat) (bytes : List Byte) (s : State) : State :=
  if off + bytes.length ≤ storeSize s.cfg st then s.setStore st (Memory.writeBytes (s.store st) off bytes)
  else s

/-- `Decrypt(off, n)`: what the decryption unit answers (20_memory R60, log 7). -/
def decrypt (off n : Nat) (s : State) : List Byte :=
  (List.range n).map (fun k => Config.decryptByte s.flash off n k)

/-! ## The device by cache, bus and section -/

/-- The state of cache c. -/
def Device.cache (d : Device) : CacheId → CacheState
  | .icache => d.icache
  | .dcache => d.dcache

/-- Replaces the state of cache c. -/
def Device.setCache (d : Device) (c : CacheId) (x : CacheState) : Device :=
  match c with
  | .icache => { d with icache := x }
  | .dcache => { d with dcache := x }

/-- The permission table of bus b. -/
def Device.pms (d : Device) : Bus → PmsTable
  | .ibus => d.ipms
  | .dbus => d.dpms

/-- Replaces the permission table of bus b. -/
def Device.setPms (d : Device) (b : Bus) (x : PmsTable) : Device :=
  match b with
  | .ibus => { d with ipms := x }
  | .dbus => { d with dpms := x }

/-- Lock section s of a cache. -/
def CacheState.lock (x : CacheState) : Sec → LockSection
  | .s0 => x.lock0
  | .s1 => x.lock1

/-- Replaces lock section s. -/
def CacheState.setLock (x : CacheState) (s : Sec) (l : LockSection) : CacheState :=
  match s with
  | .s0 => { x with lock0 := l }
  | .s1 => { x with lock1 := l }

/-- Autoload section s of a cache. -/
def CacheState.al (x : CacheState) : Sec → AutoloadSection
  | .s0 => x.al0
  | .s1 => x.al1

/-- Replaces autoload section s. -/
def CacheState.setAl (x : CacheState) (s : Sec) (l : AutoloadSection) : CacheState :=
  match s with
  | .s0 => { x with al0 := l }
  | .s1 => { x with al1 := l }

/-- Boundary k of a permission table. -/
def PmsTable.bound (x : PmsTable) : PmsSec → BitVec 12
  | .k0 => x.bound0
  | .k1 => x.bound1
  | .k2 => x.bound2

/-- Replaces boundary k. -/
def PmsTable.setBound (x : PmsTable) (k : PmsSec) (b : BitVec 12) : PmsTable :=
  match k with
  | .k0 => { x with bound0 := b }
  | .k1 => { x with bound1 := b }
  | .k2 => { x with bound2 := b }

/-- Attribute byte k of a permission table. -/
def PmsTable.attr (x : PmsTable) : PmsSec → BitVec 8
  | .k0 => x.attr0
  | .k1 => x.attr1
  | .k2 => x.attr2

/-- Replaces attribute byte k. -/
def PmsTable.setAttr (x : PmsTable) (k : PmsSec) (a : BitVec 8) : PmsTable :=
  match k with
  | .k0 => { x with attr0 := a }
  | .k1 => { x with attr1 := a }
  | .k2 => { x with attr2 := a }

/-- MMU entry i; an index of 512 or more names none, and reads as the reset entry (no rule reads one). -/
def Device.entry (d : Device) (i : Nat) : MmuEntry :=
  d.mmu[i]?.getD MmuEntry.reset

/-- Replaces MMU entry i; an index of 512 or more changes nothing. -/
def Device.setEntry (d : Device) (i : Nat) (e : MmuEntry) : Device :=
  { d with mmu := d.mmu.setIfInBounds i e }

/-! ## Status bits, the latch and the interrupt line -/

/-- SET_STATUS(n): sets bit n of `int_st` (60_exceptions R134). -/
def setStatus (n : Nat) (d : Device) : Device :=
  { d with intSt := d.intSt ||| (1#11 <<< n) }

/-- LATCH: overwrites the single Fault Record and sets the fault's status bit (60_exceptions R135). -/
def latch (code : BitVec 4) (content : BitVec 10) (vaddr : Word) (n : Nat) (d : Device) : Device :=
  setStatus n { d with faultVaddr := vaddr, faultCode := code, faultContent := content }

/-- INT_CLR: clears the status bits written 1 and nothing else (60_exceptions R145). -/
def clearStatus (v : Word) (d : Device) : Device :=
  { d with intSt := d.intSt &&& ~~~(v.extractLsb' 0 11) }

/-- The interrupt output, one level signal: `int_out = ((int_st & int_ena) ≠ 0)` (60_exceptions R144). -/
def Device.intOut (d : Device) : Bool :=
  (d.intSt &&& d.intEna) != 0#11

/-! ## Completing an operation, fetching the next event -/

/-- The state after an operation that leaves the device in d and answers a. -/
def State.commit (s : State) (d : Device) (a : Answer) : State :=
  { s with dev := d, answer := a }

/-- The next event of the program (10_state R17). -/
def fetch (s : State) : Option Event :=
  s.program[s.position]?

/-- The number of the draw after an event: the next event draws afresh unless it is equal to this one, so that two
identical reads with no other operation between them return the same bytes (20_memory R57, R59, log 6). -/
def nextDraw (s : State) : Nat :=
  if s.program[s.position + 1]? = s.program[s.position]? then s.draws else s.draws + 1

/-- The position advances by one per event (10_state R17). -/
def advance (s : State) : State :=
  { s with position := s.position + 1, draws := nextDraw s }

/-- `advance` after an operation that answers a next state. -/
def advanceResult : Result → Result
  | .next s => .next (advance s)
  | .fault f => .fault f
  | .refused r => .refused r

end Sys2Proof.Machine
end

