-- ==== Sys2Proof/Machine/Operands.lean ====
section
/-! DEFINITION. Machine/Operands.lean: the fields of written words, the word formats (30_encoding R69 to R73), window
addresses and page indices (00_scope R8, 42_translation R90), ranges and their pages (45 R117 to R119), and the
residency set (10_state R25). -/

namespace Sys2Proof.Machine

/-! ## Words -/

/-- A 32-bit word with bit n equal to b and every other bit 0. -/
def flagWord (n : Nat) (b : Bool) : Word :=
  if b then 1#32 <<< n else 0#32

/-- A 32-bit word holding the unsigned field x from bit n upward (30_encoding R73). -/
def fieldWord (n : Nat) (x : BitVec w) : Word :=
  x.setWidth 32 <<< n

/-- `enc(e) = zext_32({e.invalid, e.page_number})` (30_encoding R69). -/
def MmuEntry.encode (e : MmuEntry) : Word :=
  fieldWord 0 e.page ||| flagWord 8 e.invalid

/-- Decoding an entry word: bits [31:9] are discarded (30_encoding R69, 41_mmu_table R85). -/
def MmuEntry.decode (w : Word) : MmuEntry :=
  { page := w.extractLsb' 0 8, invalid := w.getLsbD 8 }

/-- The number of a class: 0 R, 1 W, 2 X (30_encoding R68). -/
def classNumber : AccessClass → Nat
  | .read => 0
  | .write => 1
  | .fetch => 2

/-- `attr(a, w)`: the 3-bit attribute of world w in an attribute byte (30_encoding R72). -/
def worldAttr (a : BitVec 8) : World → BitVec 3
  | .world0 => a.extractLsb' 0 3
  | .world1 => a.extractLsb' 4 3

/-- The number a section has in the content of a PMS fault: 0 to 2, or 3 where no section matched (30_encoding R71). -/
def sectNumber : Option PmsSec → BitVec 2
  | some .k0 => 0#2
  | some .k1 => 1#2
  | some .k2 => 2#2
  | none => 3#2

/-- `pms_content(w, a, k, sect, b)`: bit 0 the world, bits [3:1] the attribute, bits [5:4] the class, bits [7:6] the
section, bit 8 the bus, bit 9 zero (30_encoding R71). -/
def pmsContent (w : World) (a : BitVec 3) (k : AccessClass) (sect : Option PmsSec) (b : Bus) : BitVec 10 :=
  0#1 ++ (match b with | .ibus => 0#1 | .dbus => 1#1) ++ sectNumber sect ++ BitVec.ofNat 2 (classNumber k) ++ a ++
    (match w with | .world0 => 0#1 | .world1 => 1#1)

/-- The FAULT_INFO word: the code in bits [3:0], the content in bits [13:4] (30_encoding R70). -/
def Device.faultInfo (d : Device) : Word :=
  fieldWord 0 d.faultCode ||| fieldWord 4 d.faultContent

/-! ## Windows and pages -/

/-- `window_base(c)` (00_scope R8). -/
def windowBase (p : Params) : CacheId → Nat
  | .icache => p.ibusBase.toNat
  | .dcache => p.dbusBase.toNat

/-- `STORE_MAP(c, index)` (42_translation R92). -/
def storeMap (p : Params) (c : CacheId) (index : Nat) : StoreId :=
  if (match c with | .icache => p.ipsramPages | .dcache => p.dpsramPages).getLsbD index then .psram else .flash

/-- `FLASH_CRYPT(offset)` (20_memory R60). -/
def flashCrypted (p : Params) (off : Nat) : Bool :=
  p.flashCrypt.any (fun r => decide (r.1 ≤ off) && decide (off < r.1 + r.2))

/-- The page index of a window address: `(va - window_base) div 65536` (42_translation R90). -/
def pageIndex (p : Params) (c : CacheId) (va : Nat) : Nat :=
  (va - windowBase p c) / pageSize

/-! ## Ranges -/

/-- VALID_RANGE: the range lies inside the window (45_lock_preload_autoload R117). -/
def validRange (p : Params) (c : CacheId) (r : Range) : Bool :=
  decide (windowBase p c ≤ r.start.toNat) &&
    decide (r.start.toNat + r.size.toNat ≤ windowBase p c + windowSize)

/-- The first page a range touches (45 R118). -/
def firstPage (p : Params) (c : CacheId) (r : Range) : Nat :=
  (r.start.toNat - windowBase p c) / pageSize

/-- The last page a nonempty range touches (45 R118). -/
def lastPage (p : Params) (c : CacheId) (r : Range) : Nat :=
  (r.start.toNat + r.size.toNat - 1 - windowBase p c) / pageSize

/-- `q ∈ PAGES(c, r)` (45 R118). -/
def inPages (p : Params) (c : CacheId) (r : Range) (q : Nat) : Bool :=
  r.size != 0#32 && decide (firstPage p c r ≤ q) && decide (q ≤ lastPage p c r)

/-- `PAGES(c, r)`, ascending (45 R118). -/
def pages (p : Params) (c : CacheId) (r : Range) : List Nat :=
  if r.size = 0#32 then []
  else List.range' (firstPage p c r) (lastPage p c r + 1 - firstPage p c r)

/-- The pages of a range in walk order: ascending, or descending when the order bit is set (45 R122, R125). -/
def pagesInOrder (p : Params) (c : CacheId) (descending : Bool) (r : Range) : List Nat :=
  if descending then (pages p c r).reverse else pages p c r

/-- Page q of cache c is pinned: some locked section's captured range touches it (45 R119). -/
def pinned (p : Params) (c : CacheId) (x : CacheState) (q : Nat) : Bool :=
  (x.lock0.ena && inPages p c x.lock0.range q) || (x.lock1.ena && inPages p c x.lock1.range q)

/-! ## The residency set -/

/-- `resident[p] <- 1`. -/
def setResident (r : BitVec 512) (q : Nat) : BitVec 512 :=
  r ||| (1#512 <<< q)

/-- `resident[p] <- 0`. -/
def clearResident (r : BitVec 512) (q : Nat) : BitVec 512 :=
  r &&& ~~~(1#512 <<< q)

/-- `for p in ps: resident[p] <- 1` (45 R122, R125). -/
def loadPages (r : BitVec 512) (ps : List Nat) : BitVec 512 :=
  ps.foldl setResident r

/-- `for p in 0..511: if not pinned(c, p): resident[c][p] <- 0` (45 R126). -/
def dropUnpinned (p : Params) (c : CacheId) (x : CacheState) : BitVec 512 :=
  (List.range nEntries).foldl (fun r q => if pinned p c x q then r else clearResident r q) x.resident

end Sys2Proof.Machine
end

