-- ==== Sys2Proof/Machine/Flags.lean ====
section
/-! DEFINITION. Machine/Flags.lean: the eleven status bits of INT_ST (10_state R44) and the saturating counters that
set five of them (46_access_counters R129, R130). The block has no arithmetic condition codes (10_state R49); its DONE
and readback bits are in Machine/Registers.lean, where the field tables give them. -/

namespace Sys2Proof.Machine

/-- IBUS_MMU_FAULT or DBUS_MMU_FAULT (10_state R44). -/
def mmuFaultBit : CacheId → Nat
  | .icache => 0
  | .dcache => 1

/-- IBUS_PMS_FAULT or DBUS_PMS_FAULT (10_state R44). -/
def pmsFaultBit : Bus → Nat
  | .ibus => 2
  | .dbus => 3

/-- ICACHE_CFG_RANGE or DCACHE_CFG_RANGE (10_state R44). -/
def cfgRangeBit : CacheId → Nat
  | .icache => 4
  | .dcache => 5

/-- IBUS_ACS_CNT_OVF or DBUS_ACS_CNT_OVF (10_state R44). -/
def acsOvfBit : CacheId → Nat
  | .icache => 6
  | .dcache => 8

/-- IBUS_MISS_CNT_OVF or DBUS_FLASH_MISS_CNT_OVF (10_state R44). -/
def missOvfBit : CacheId → Nat
  | .icache => 7
  | .dcache => 9

/-- DBUS_PSRAM_MISS_CNT_OVF (10_state R44). -/
def psramMissOvfBit : Nat := 10

/-- `CNT_MAX` (00_scope section 4). -/
def cntMax : Word := 0xFFFFFFFF#32

/-- The counter after SAT_INC: it holds at CNT_MAX (46 R129). -/
def satInc (x : Word) : Word :=
  if x = cntMax then x else x + 1#32

/-- The status after SAT_INC: bit n is set when the counter stood at CNT_MAX already (46 R129). -/
def satStatus (x : Word) (n : Nat) (d : Device) : Device :=
  if x = cntMax then setStatus n d else d

/-- SAT_INC of `acs_cnt[c]`. -/
def countAccess (c : CacheId) (d : Device) : Device :=
  satStatus (d.cache c).acsCnt (acsOvfBit c)
    (d.setCache c { d.cache c with acsCnt := satInc (d.cache c).acsCnt })

/-- SAT_INC of `miss_cnt[c]`. -/
def countMiss (c : CacheId) (d : Device) : Device :=
  satStatus (d.cache c).missCnt (missOvfBit c)
    (d.setCache c { d.cache c with missCnt := satInc (d.cache c).missCnt })

/-- SAT_INC of `psram_miss_cnt[D]`. -/
def countPsramMiss (d : Device) : Device :=
  satStatus d.dcache.psramMissCnt psramMissOvfBit
    (d.setCache .dcache { d.dcache with psramMissCnt := satInc d.dcache.psramMissCnt })

/-- RECORD: every completed access counts; a miss counts in `miss_cnt[I]` on IBUS, and on DBUS by the store that backs
the page (46 R130). -/
def record (c : CacheId) (hit : Bool) (st : StoreId) (d : Device) : Device :=
  if hit then countAccess c d
  else
    match c, st with
    | .icache, _ => countMiss .icache (countAccess .icache d)
    | .dcache, .flash => countMiss .dcache (countAccess .dcache d)
    | .dcache, .psram => countPsramMiss (countAccess .dcache d)

end Sys2Proof.Machine
end

