-- ==== Sys2Proof/Machine/Commands.lean ====
section
/-! DEFINITION. Machine/Commands.lean: the commands a register write can run, each as its rule's pseudocode: the cache
state machine (44 R109 to R112), lock, preload, autoload, invalidate (45 R120 to R126), the counter clear (46 R131)
and the permission-table stores (43 R105 to R107); and the page evaluation of a completed access (42 R96, 45 R125). -/

namespace Sys2Proof.Machine

/-! ## The state machine of a cache (44_cache_state R108) -/

/-- ENABLE: Disabled to Enabled (44 R109). -/
def cmdEnable (c : CacheId) (d : Device) : Device :=
  if (d.cache c).cstate = .disabled then d.setCache c { d.cache c with cstate := .enabled } else d

/-- DISABLE: Enabled to Disabled; ignored in Frozen (44 R110). -/
def cmdDisable (c : CacheId) (d : Device) : Device :=
  if (d.cache c).cstate = .enabled then d.setCache c { d.cache c with cstate := .disabled } else d

/-- FREEZE: Enabled to Frozen (44 R111). -/
def cmdFreeze (c : CacheId) (d : Device) : Device :=
  if (d.cache c).cstate = .enabled then d.setCache c { d.cache c with cstate := .frozen } else d

/-- UNFREEZE: Frozen to Enabled (44 R112). -/
def cmdUnfreeze (c : CacheId) (d : Device) : Device :=
  if (d.cache c).cstate = .frozen then d.setCache c { d.cache c with cstate := .enabled } else d

/-! ## Lock, preload, autoload, invalidate -/

/-- LOCK s: captures the configured range, or reports an invalid one in INT_ST (45 R120, 60 R140). -/
def cmdLock (p : Params) (c : CacheId) (s : Sec) (d : Device) : Device :=
  let l := (d.cache c).lock s
  if validRange p c { start := l.addr, size := l.size } then
    d.setCache c ((d.cache c).setLock s { l with ena := true, range := { start := l.addr, size := l.size } })
  else setStatus (cfgRangeBit c) d

/-- UNLOCK s: the captured range keeps its value, unused (45 R121). -/
def cmdUnlock (c : CacheId) (s : Sec) (d : Device) : Device :=
  d.setCache c ((d.cache c).setLock s { (d.cache c).lock s with ena := false })

/-- PRELOAD: clears DONE; an invalid range is reported and leaves DONE 0; otherwise the pages are loaded when the
cache is Enabled and DONE is set (45 R122). -/
def cmdPreload (p : Params) (c : CacheId) (d : Device) : Device :=
  let x := d.cache c
  let r : Range := { start := x.preloadAddr, size := x.preloadSize }
  if validRange p c r then
    if x.cstate = .enabled then
      d.setCache c { x with
        resident := loadPages x.resident (pagesInOrder p c x.preloadOrder r)
        preloadDone := true }
    else d.setCache c { x with preloadDone := true }
  else setStatus (cfgRangeBit c) (d.setCache c { x with preloadDone := false })

/-- AUTOLOAD_ARM s: captures the configured range, or reports an invalid one (45 R123, 60 R140). -/
def cmdArm (p : Params) (c : CacheId) (s : Sec) (d : Device) : Device :=
  let l := (d.cache c).al s
  if validRange p c { start := l.addr, size := l.size } then
    d.setCache c ((d.cache c).setAl s { l with ena := true, range := { start := l.addr, size := l.size } })
  else setStatus (cfgRangeBit c) d

/-- AUTOLOAD_DISARM s (45 R124). -/
def cmdDisarm (c : CacheId) (s : Sec) (d : Device) : Device :=
  d.setCache c ((d.cache c).setAl s { (d.cache c).al s with ena := false })

/-- INVALIDATE: every page that is not pinned leaves the cache, in every cache state; DONE is set (45 R126). -/
def cmdInvalidate (p : Params) (c : CacheId) (d : Device) : Device :=
  d.setCache c { d.cache c with resident := dropUnpinned p c (d.cache c), invalDone := true }

/-- CNT_CLR: clears the three counters of one cache; the status bits stay (46 R131). -/
def cmdCntClr (c : CacheId) (d : Device) : Device :=
  d.setCache c { d.cache c with acsCnt := 0#32, missCnt := 0#32, psramMissCnt := 0#32 }

/-! ## The permission table -/

/-- PMS_SET_BOUNDARY k: ignored while any lock flag of the bus is set (43 R105). -/
def pmsSetBoundary (b : Bus) (k : PmsSec) (v : Word) (d : Device) : Device :=
  if (d.pms b).lock = 0#3 then d.setPms b ((d.pms b).setBound k (v.extractLsb' 0 12)) else d

/-- PMS_SET_ATTR k: ignored while any lock flag of the bus is set; bits 3 and 7 are not stored (43 R106). -/
def pmsSetAttr (b : Bus) (k : PmsSec) (v : Word) (d : Device) : Device :=
  if (d.pms b).lock = 0#3 then d.setPms b ((d.pms b).setAttr k (v.extractLsb' 0 8 &&& 0x77#8)) else d

/-- PMS_LOCK: the lock flags are sticky (43 R107). -/
def pmsLock (b : Bus) (v : Word) (d : Device) : Device :=
  d.setPms b { d.pms b with lock := (d.pms b).lock ||| v.extractLsb' 0 3 }

/-! ## The pages after a completed access -/

/-- Fill on miss: an access that missed in Enabled makes its page resident (42 R96). -/
def fillOnMiss (c : CacheId) (q : Nat) (hit : Bool) (d : Device) : Device :=
  if hit = false ∧ (d.cache c).cstate = .enabled then
    d.setCache c { d.cache c with resident := setResident (d.cache c).resident q }
  else d

/-- TRIG_MATCH: 0 and 3 on a miss, 1 on a hit, 2 on both (10_state R37, 45 R125). -/
def trigMatch (t : BitVec 2) (hit : Bool) : Bool :=
  if t = 0#2 ∨ t = 3#2 then !hit else if t = 1#2 then hit else true

/-- One section of AUTOLOAD_EVAL: an armed section whose range holds the address and whose trigger matches loads its
whole range, in Enabled (45 R125). -/
def autoloadSection (p : Params) (c : CacheId) (s : Sec) (va : Word) (hit : Bool) (d : Device) : Device :=
  let x := d.cache c
  let l := x.al s
  if l.ena = true ∧ l.range.start.toNat ≤ va.toNat ∧ va.toNat < l.range.start.toNat + l.range.size.toNat ∧
      trigMatch l.trig hit = true ∧ x.cstate = .enabled then
    d.setCache c { x with resident := loadPages x.resident (pagesInOrder p c x.alOrder l.range) }
  else d

/-- AUTOLOAD_EVAL: section 0, then section 1 (45 R125). -/
def autoloadEval (p : Params) (c : CacheId) (va : Word) (hit : Bool) (d : Device) : Device :=
  autoloadSection p c .s1 va hit (autoloadSection p c .s0 va hit d)

end Sys2Proof.Machine
end

