-- ==== Sys2Proof/Machine/Registers.lean ====
section
/-! DEFINITION. Machine/Registers.lean: the read value of every register and the effect of a write to every register
(10_state R30 to R48, 40_register_file R80, R81). A write is, register by register, the store phase of R81 (RW, W1C and
STICKY fields) and then its command phase (LVL fields on an edge against the value read before the write, TRIG fields
written 1), in ascending bit order (30_encoding R74, R75). -/

namespace Sys2Proof.Machine

/-! ## Reads -/

/-- CTRL: ENABLE reads `cstate ≠ Disabled` (10_state R32). -/
def readCtrl (x : CacheState) : Word :=
  flagWord 0 (x.cstate != .disabled) ||| flagWord 1 x.shut ||| flagWord 2 x.wrap

/-- FREEZE: FREEZE_ENA and FREEZE_DONE read `cstate = Frozen` (10_state R33). -/
def readFreeze (x : CacheState) : Word :=
  flagWord 0 (x.cstate == .frozen) ||| flagWord 1 x.freezeMode ||| flagWord 2 (x.cstate == .frozen)

/-- LOCK_CTRL: LOCKs_ENA and LOCKs_DONE read `lock_ena[s]` (10_state R34). -/
def readLockCtrl (x : CacheState) : Word :=
  flagWord 0 x.lock0.ena ||| flagWord 1 x.lock0.ena ||| flagWord 2 x.lock1.ena ||| flagWord 3 x.lock1.ena

/-- PRELOAD_CTRL: PRELOAD_ENA reads 0 (10_state R36). -/
def readPreloadCtrl (x : CacheState) : Word :=
  flagWord 1 x.preloadDone ||| flagWord 2 x.preloadOrder

/-- AUTOLOAD_CTRL (10_state R37). -/
def readAutoloadCtrl (x : CacheState) : Word :=
  flagWord 0 x.al0.ena ||| flagWord 1 x.al0.ena ||| flagWord 2 x.al1.ena ||| flagWord 3 x.al1.ena |||
    fieldWord 4 x.al0.trig ||| fieldWord 6 x.al1.trig ||| flagWord 8 x.alOrder

/-- SYNC_CTRL: INVALIDATE_ENA reads 0 (10_state R38). -/
def readSyncCtrl (x : CacheState) : Word :=
  flagWord 1 x.invalDone

/-- The read value of a register of cache c's block; the permission table of the bus c serves stands in it
(10_state R15, R31 to R43). CNT_CTRL reads 0 (R39). -/
def readBlock (c : CacheId) (r : BlockReg) (d : Device) : Word :=
  match r with
  | .ctrl => readCtrl (d.cache c)
  | .freeze => readFreeze (d.cache c)
  | .lockCtrl => readLockCtrl (d.cache c)
  | .lockAddr s => ((d.cache c).lock s).addr
  | .lockSize s => ((d.cache c).lock s).size
  | .preloadCtrl => readPreloadCtrl (d.cache c)
  | .preloadAddr => (d.cache c).preloadAddr
  | .preloadSize => (d.cache c).preloadSize
  | .autoloadCtrl => readAutoloadCtrl (d.cache c)
  | .autoloadAddr s => ((d.cache c).al s).addr
  | .autoloadSize s => ((d.cache c).al s).size
  | .syncCtrl => readSyncCtrl (d.cache c)
  | .cntCtrl => 0#32
  | .acsCnt => (d.cache c).acsCnt
  | .missCnt => (d.cache c).missCnt
  | .psramMissCnt => (d.cache c).psramMissCnt
  | .pmsBoundary k => fieldWord 0 ((d.pms c.bus).bound k)
  | .pmsAttr k => fieldWord 0 ((d.pms c.bus).attr k)
  | .pmsLock => fieldWord 0 (d.pms c.bus).lock

/-- The read value of a register; an unmapped offset reads 0 (40_register_file R80, 10_state R48). -/
def readReg (reg : Option Reg) (d : Device) : Word :=
  match reg with
  | some (.block c r) => readBlock c r d
  | some .intSt => fieldWord 0 d.intSt
  | some .intEna => fieldWord 0 d.intEna
  | some .faultVaddr => d.faultVaddr
  | some .faultInfo => d.faultInfo
  | some (.mmuEntry i) => (d.entry i.toNat).encode
  | none => 0#32

/-! ## Writes -/

/-- The command phase of an LVL field: an edge runs the command of the written value (00_scope R14, 40 R81). -/
def levelEdge (new old : Bool) (on off : Device → Device) (d : Device) : Device :=
  if new = old then d else if new then on d else off d

/-- The command phase of a TRIG field: a write of 1 runs the command (00_scope R14, 40 R81). -/
def trigger (new : Bool) (cmd : Device → Device) (d : Device) : Device :=
  if new then cmd d else d

/-- A write of CTRL: SHUT and WRAP_EN are stored, then an edge of ENABLE runs ENABLE or DISABLE
(10_state R32; 44 R109, R110, R114, R115). -/
def writeCtrl (c : CacheId) (v : Word) (d : Device) : Device :=
  levelEdge (v.getLsbD 0) ((d.cache c).cstate != .disabled) (cmdEnable c) (cmdDisable c)
    (d.setCache c { d.cache c with shut := v.getLsbD 1, wrap := v.getLsbD 2 })

/-- A write of FREEZE: FREEZE_MODE is stored, then an edge of FREEZE_ENA runs FREEZE or UNFREEZE
(10_state R33; 44 R111, R112, R113). -/
def writeFreeze (c : CacheId) (v : Word) (d : Device) : Device :=
  levelEdge (v.getLsbD 0) ((d.cache c).cstate == .frozen) (cmdFreeze c) (cmdUnfreeze c)
    (d.setCache c { d.cache c with freezeMode := v.getLsbD 1 })

/-- A write of LOCK_CTRL: an edge of LOCK0_ENA, then one of LOCK1_ENA (10_state R34; 45 R120, R121; 30 R75). -/
def writeLockCtrl (p : Params) (c : CacheId) (v : Word) (d : Device) : Device :=
  levelEdge (v.getLsbD 2) (d.cache c).lock1.ena (cmdLock p c .s1) (cmdUnlock c .s1)
    (levelEdge (v.getLsbD 0) (d.cache c).lock0.ena (cmdLock p c .s0) (cmdUnlock c .s0) d)

/-- A write of PRELOAD_CTRL: PRELOAD_ORDER is stored, then PRELOAD_ENA = 1 runs PRELOAD (10_state R36; 45 R122). -/
def writePreloadCtrl (p : Params) (c : CacheId) (v : Word) (d : Device) : Device :=
  trigger (v.getLsbD 0) (cmdPreload p c)
    (d.setCache c { d.cache c with preloadOrder := v.getLsbD 2 })

/-- A write of AUTOLOAD_CTRL: SCT0_TRIG, SCT1_TRIG and ORDER are stored, then an edge of SCT0_ENA, then one of SCT1_ENA
(10_state R37; 45 R123, R124; 30 R75). -/
def writeAutoloadCtrl (p : Params) (c : CacheId) (v : Word) (d : Device) : Device :=
  levelEdge (v.getLsbD 2) (d.cache c).al1.ena (cmdArm p c .s1) (cmdDisarm c .s1)
    (levelEdge (v.getLsbD 0) (d.cache c).al0.ena (cmdArm p c .s0) (cmdDisarm c .s0)
      (d.setCache c { d.cache c with
        al0 := { (d.cache c).al0 with trig := v.extractLsb' 4 2 }
        al1 := { (d.cache c).al1 with trig := v.extractLsb' 6 2 }
        alOrder := v.getLsbD 8 }))

/-- A write of SYNC_CTRL: INVALIDATE_ENA = 1 runs INVALIDATE (10_state R38; 45 R126). -/
def writeSyncCtrl (p : Params) (c : CacheId) (v : Word) (d : Device) : Device :=
  trigger (v.getLsbD 0) (cmdInvalidate p c) d

/-- A write of CNT_CTRL: CNT_CLR = 1 clears the counters (10_state R39; 46 R131). -/
def writeCntCtrl (c : CacheId) (v : Word) (d : Device) : Device :=
  trigger (v.getLsbD 0) (cmdCntClr c) d

/-- A write of LOCKs_ADDR stores it; a range already captured stays (10_state R35). -/
def writeLockAddr (c : CacheId) (s : Sec) (v : Word) (d : Device) : Device :=
  d.setCache c ((d.cache c).setLock s { (d.cache c).lock s with addr := v })

/-- A write of LOCKs_SIZE (10_state R35). -/
def writeLockSize (c : CacheId) (s : Sec) (v : Word) (d : Device) : Device :=
  d.setCache c ((d.cache c).setLock s { (d.cache c).lock s with size := v })

/-- A write of PRELOAD_ADDR (10_state R35). -/
def writePreloadAddr (c : CacheId) (v : Word) (d : Device) : Device :=
  d.setCache c { d.cache c with preloadAddr := v }

/-- A write of PRELOAD_SIZE (10_state R35). -/
def writePreloadSize (c : CacheId) (v : Word) (d : Device) : Device :=
  d.setCache c { d.cache c with preloadSize := v }

/-- A write of AUTOLOAD_SCTs_ADDR stores it; a range already captured stays (10_state R35). -/
def writeAutoloadAddr (c : CacheId) (s : Sec) (v : Word) (d : Device) : Device :=
  d.setCache c ((d.cache c).setAl s { (d.cache c).al s with addr := v })

/-- A write of AUTOLOAD_SCTs_SIZE (10_state R35). -/
def writeAutoloadSize (c : CacheId) (s : Sec) (v : Word) (d : Device) : Device :=
  d.setCache c ((d.cache c).setAl s { (d.cache c).al s with size := v })

/-- A write of an MMU entry word: the next translation uses it (41_mmu_table R86, 20_memory R64). -/
def writeMmu (i : BitVec 9) (v : Word) (d : Device) : Device :=
  d.setEntry i.toNat (MmuEntry.decode v)

/-- A write of INT_ENA (60_exceptions R146). -/
def writeIntEna (v : Word) (d : Device) : Device :=
  { d with intEna := v.extractLsb' 0 11 }

/-- A write to a register of cache c's block; the counters are read-only and ignore it (10_state R40, 40 R83). -/
def writeBlock (p : Params) (c : CacheId) (r : BlockReg) (v : Word) (d : Device) : Device :=
  match r with
  | .ctrl => writeCtrl c v d
  | .freeze => writeFreeze c v d
  | .lockCtrl => writeLockCtrl p c v d
  | .lockAddr s => writeLockAddr c s v d
  | .lockSize s => writeLockSize c s v d
  | .preloadCtrl => writePreloadCtrl p c v d
  | .preloadAddr => writePreloadAddr c v d
  | .preloadSize => writePreloadSize c v d
  | .autoloadCtrl => writeAutoloadCtrl p c v d
  | .autoloadAddr s => writeAutoloadAddr c s v d
  | .autoloadSize s => writeAutoloadSize c s v d
  | .syncCtrl => writeSyncCtrl p c v d
  | .cntCtrl => writeCntCtrl c v d
  | .acsCnt => d
  | .missCnt => d
  | .psramMissCnt => d
  | .pmsBoundary k => pmsSetBoundary c.bus k v d
  | .pmsAttr k => pmsSetAttr c.bus k v d
  | .pmsLock => pmsLock c.bus v d

/-- A write to a register; the fault record is read-only and an unmapped offset ignores the write
(40_register_file R81, 10_state R46, R48). -/
def writeReg (p : Params) (reg : Option Reg) (v : Word) (d : Device) : Device :=
  match reg with
  | some (.block c r) => writeBlock p c r v d
  | some .intSt => clearStatus v d
  | some .intEna => writeIntEna v d
  | some .faultVaddr => d
  | some .faultInfo => d
  | some (.mmuEntry i) => writeMmu i v d
  | none => d

end Sys2Proof.Machine
end

