-- ==== Sys2Proof/Machine/Translation.lean ====
section
/-! DEFINITION. Machine/Translation.lean: the permission check (43_permission_gate R103, R104), TRANSLATE
(42_translation R91) and the one bus-access pipeline (42 R95, in the priority order of 60_exceptions R142). -/

namespace Sys2Proof.Machine

/-! ## Stage 1: the permission gate -/

/-- SECTION(b, p): the first boundary above the page names the section (43 R103). -/
def pmsSection (t : PmsTable) (q : Nat) : Option PmsSec :=
  if q < t.bound0.toNat then some .k0
  else if q < t.bound1.toNat then some .k1
  else if q < t.bound2.toNat then some .k2
  else none

/-- The attribute PMS_CHECK reports: that of the world in the section, or 0 where no section holds the page
(43 R104). -/
def pmsAttrOf (t : PmsTable) (w : World) (q : Nat) : BitVec 3 :=
  match pmsSection t q with
  | none => 0#3
  | some k => worldAttr (t.attr k) w

/-- PMS_CHECK: the class's attribute bit decides; a page in no section is rejected (43 R104). -/
def pmsAllows (t : PmsTable) (w : World) (k : AccessClass) (q : Nat) : Bool :=
  (pmsAttrOf t w q).getLsbD (classNumber k)

/-- The PermissionFault of a rejected access: code 2, the content of 30_encoding R71 (60_exceptions R138). -/
def pmsFault (b : Bus) (w : World) (k : AccessClass) (va : Word) (q : Nat) (d : Device) : Device :=
  latch 2#4 (pmsContent w (pmsAttrOf (d.pms b) w q) k (pmsSection (d.pms b) q) b) va (pmsFaultBit b) d

/-! ## Stage 2: translation -/

/-- What TRANSLATE returns (42 R91). -/
inductive Translated where
  | at (st : StoreId) (off : Nat)
  | translationFault
  | rangeFault
deriving DecidableEq, Repr

/-- TRANSLATE(c, va) without its latch: the store and the offset of a mapped address (42 R91, R92, R93). -/
def translate (p : Params) (c : CacheId) (va : Word) (d : Device) : Translated :=
  if va.toNat < windowBase p c then .rangeFault
  else if nEntries ≤ pageIndex p c va.toNat then .rangeFault
  else if (d.entry (pageIndex p c va.toNat)).invalid then .translationFault
  else if storeMap p c (pageIndex p c va.toNat) = .flash ∧ (d.cache c).wrap = true then
    .at .flash (((d.entry (pageIndex p c va.toNat)).page.toNat * pageSize + va.toNat % pageSize) % p.flashSize)
  else
    .at (storeMap p c (pageIndex p c va.toNat))
      ((d.entry (pageIndex p c va.toNat)).page.toNat * pageSize + va.toNat % pageSize)

/-- The latch of a TranslationFault: code 1, content the page index (42 R91, 60_exceptions R137). -/
def mmuFault (c : CacheId) (va : Word) (q : Nat) (d : Device) : Device :=
  latch 1#4 (BitVec.ofNat 10 q) va (mmuFaultBit c) d

/-! ## Stages 3 to 5 -/

/-- Stage 3: why the cache state controller turns an access away, if it does (44 R114, R116; 42 R95). -/
def cacheRejects (x : CacheState) (k : AccessClass) : Option Answer :=
  if x.shut then some .shut
  else if x.cstate = .disabled then some .cacheDisabled
  else if x.cstate = .frozen ∧ k = .write ∧ x.freezeMode = true then some .frozenWriteRejected
  else none

/-- Stage 4 for a read or fetch: an encrypted flash offset is answered by the decryption unit (42 R95, 20 R60). -/
def readData (st : StoreId) (off len : Nat) (s : State) : List Byte :=
  if st = .flash ∧ flashCrypted s.cfg off = true then decrypt off len s
  else memRead st off len s

/-- Stage 4 for a write: a frozen cache with mode 0 lets it complete without commit (42 R95, R101). -/
def writeData (x : CacheState) (st : StoreId) (off : Nat) (wdata : List Byte) (s : State) : State :=
  if x.cstate = .frozen ∧ x.freezeMode = false then s else memWrite st off wdata s

/-- Stage 5: count, fill on a miss, evaluate autoload (42 R95, R96; 46 R130; 45 R125). `hit` is the residency of the
page before the access. -/
def account (p : Params) (c : CacheId) (va : Word) (st : StoreId) (d : Device) : Device :=
  let q := pageIndex p c va.toNat
  let hit := (d.cache c).resident.getLsbD q
  autoloadEval p c va hit (fillOnMiss c q hit (record c hit st d))

/-- Stages 4 and 5 of an access that every gate let through. -/
def completeAccess (c : CacheId) (k : AccessClass) (va : Word) (len : Nat) (wdata : List Byte) (st : StoreId)
    (off : Nat) (s : State) : State :=
  match k with
  | .write =>
    let s' := writeData (s.dev.cache c) st off wdata s
    s'.commit (account s.cfg c va st s.dev) (.ok [])
  | .read => s.commit (account s.cfg c va st s.dev) (.ok (readData st off len s))
  | .fetch => s.commit (account s.cfg c va st s.dev) (.ok (readData st off len s))

/-- Stages 1 to 5 of an access whose range is inside the window and inside one page (42 R95). -/
def gatedAccess (b : Bus) (w : World) (k : AccessClass) (va : Word) (len : Nat) (wdata : List Byte) (s : State) :
    State :=
  let q := pageIndex s.cfg b.cache va.toNat
  if pmsAllows (s.dev.pms b) w k q then
    match translate s.cfg b.cache va s.dev with
    | .rangeFault => s.commit s.dev .rangeFault
    | .translationFault => s.commit (mmuFault b.cache va q s.dev) .translationFault
    | .at st off =>
      match cacheRejects (s.dev.cache b.cache) k with
      | some a => s.commit s.dev a
      | none => completeAccess b.cache k va len wdata st off s
  else s.commit (pmsFault b w k va q s.dev) .permissionFault

/-- BUS_ACCESS (42 R95): the refusals and RangeFault in the order of 60_exceptions R142, then the gates. -/
def busAccess (b : Bus) (w : World) (k : AccessClass) (va : Word) (len : Nat) (wdata : List Byte) (s : State) :
    Result :=
  if len < 1 ∨ s.cfg.maxAccessLen < len then .refused .accessLength
  else if va.toNat < windowBase s.cfg b.cache ∨
      windowBase s.cfg b.cache + windowSize < va.toNat + len then
    .next (s.commit s.dev .rangeFault)
  else if pageSize < va.toNat % pageSize + len then .refused .pageCrossing
  else .next (gatedAccess b w k va len wdata s)

end Sys2Proof.Machine
end

