-- ==== Sys2Proof/Machine/BusOps.lean ====
section
/-! DEFINITION. Machine/BusOps.lean: the six bus operations (42_translation R97 to R102), each BUS_ACCESS with its bus and class. -/

namespace Sys2Proof.Machine

/-- IBUS_READ (R97): a bus request of this bus and class in world w at va, of len bytes. -/
def execIbusRead (w : World) (va : Word) (len : Nat) (s : State) : Result :=
  busAccess .ibus w .read va len [] s

/-- IBUS_WRITE (R98): a bus request of this bus and class in world w at va, of the bytes wdata. -/
def execIbusWrite (w : World) (va : Word) (wdata : List Byte) (s : State) : Result :=
  busAccess .ibus w .write va wdata.length wdata s

/-- IBUS_FETCH (R99): a bus request of this bus and class in world w at va, of len bytes. -/
def execIbusFetch (w : World) (va : Word) (len : Nat) (s : State) : Result :=
  busAccess .ibus w .fetch va len [] s

/-- DBUS_READ (R100): a bus request of this bus and class in world w at va, of len bytes. -/
def execDbusRead (w : World) (va : Word) (len : Nat) (s : State) : Result :=
  busAccess .dbus w .read va len [] s

/-- DBUS_WRITE (R101): a bus request of this bus and class in world w at va, of the bytes wdata. -/
def execDbusWrite (w : World) (va : Word) (wdata : List Byte) (s : State) : Result :=
  busAccess .dbus w .write va wdata.length wdata s

/-- DBUS_FETCH (R102): a bus request of this bus and class in world w at va, of len bytes. -/
def execDbusFetch (w : World) (va : Word) (len : Nat) (s : State) : Result :=
  busAccess .dbus w .fetch va len [] s

end Sys2Proof.Machine
end

