-- ==== Sys2Proof/Machine/CacheControl.lean ====
section
/-! DEFINITION. Machine/CacheControl.lean: the Cache State Controller operations (44_cache_state R109 to R115). The rows of one register are the whole write of
it, because every command a write matches runs (30_encoding R76, log 3). -/

namespace Sys2Proof.Machine

/-- DCACHE_ENABLE (R109): `wr 0x000, v` with v[0] = 1.
The whole CTRL write (R76): SHUT and WRAP_EN are stored, and ENABLE runs when DCACHE reads ENABLE = 0. -/
def execDcacheEnable (v : Word) (s : State) : Result :=
  .next (s.commit (writeCtrl .dcache v s.dev) .nothing)

/-- DCACHE_DISABLE (R110): `wr 0x000, v` with v[0] = 0.
The whole CTRL write (R76): SHUT and WRAP_EN are stored, and DISABLE runs when DCACHE reads ENABLE = 1;
in Frozen it is ignored. -/
def execDcacheDisable (v : Word) (s : State) : Result :=
  .next (s.commit (writeCtrl .dcache v s.dev) .nothing)

/-- DCACHE_SHUT (R114): `wr 0x000, v`.
The whole CTRL write (R76): `shut` takes v[1], WRAP_EN is stored, and an edge of ENABLE runs its command. -/
def execDcacheShut (v : Word) (s : State) : Result :=
  .next (s.commit (writeCtrl .dcache v s.dev) .nothing)

/-- DCACHE_WRAP (R115): `wr 0x000, v`.
The whole CTRL write (R76): `wrap` takes v[2], SHUT is stored, and an edge of ENABLE runs its command. -/
def execDcacheWrap (v : Word) (s : State) : Result :=
  .next (s.commit (writeCtrl .dcache v s.dev) .nothing)

/-- DCACHE_FREEZE (R111): `wr 0x004, v` with v[0] = 1.
The whole FREEZE write (R76): FREEZE_MODE is stored, then FREEZE runs when DCACHE is not Frozen. -/
def execDcacheFreeze (v : Word) (s : State) : Result :=
  .next (s.commit (writeFreeze .dcache v s.dev) .nothing)

/-- DCACHE_UNFREEZE (R112): `wr 0x004, v` with v[0] = 0.
The whole FREEZE write (R76): FREEZE_MODE is stored, then UNFREEZE runs when DCACHE is Frozen. -/
def execDcacheUnfreeze (v : Word) (s : State) : Result :=
  .next (s.commit (writeFreeze .dcache v s.dev) .nothing)

/-- DCACHE_FREEZE_MODE (R113): `wr 0x004, v`.
The whole FREEZE write (R76): `freeze_mode` takes v[1], then an edge of FREEZE_ENA runs its command. -/
def execDcacheFreezeMode (v : Word) (s : State) : Result :=
  .next (s.commit (writeFreeze .dcache v s.dev) .nothing)

/-- ICACHE_ENABLE (R109): `wr 0x080, v` with v[0] = 1.
The whole CTRL write (R76): SHUT and WRAP_EN are stored, and ENABLE runs when ICACHE reads ENABLE = 0. -/
def execIcacheEnable (v : Word) (s : State) : Result :=
  .next (s.commit (writeCtrl .icache v s.dev) .nothing)

/-- ICACHE_DISABLE (R110): `wr 0x080, v` with v[0] = 0.
The whole CTRL write (R76): SHUT and WRAP_EN are stored, and DISABLE runs when ICACHE reads ENABLE = 1;
in Frozen it is ignored. -/
def execIcacheDisable (v : Word) (s : State) : Result :=
  .next (s.commit (writeCtrl .icache v s.dev) .nothing)

/-- ICACHE_SHUT (R114): `wr 0x080, v`.
The whole CTRL write (R76): `shut` takes v[1], WRAP_EN is stored, and an edge of ENABLE runs its command. -/
def execIcacheShut (v : Word) (s : State) : Result :=
  .next (s.commit (writeCtrl .icache v s.dev) .nothing)

/-- ICACHE_WRAP (R115): `wr 0x080, v`.
The whole CTRL write (R76): `wrap` takes v[2], SHUT is stored, and an edge of ENABLE runs its command. -/
def execIcacheWrap (v : Word) (s : State) : Result :=
  .next (s.commit (writeCtrl .icache v s.dev) .nothing)

/-- ICACHE_FREEZE (R111): `wr 0x084, v` with v[0] = 1.
The whole FREEZE write (R76): FREEZE_MODE is stored, then FREEZE runs when ICACHE is not Frozen. -/
def execIcacheFreeze (v : Word) (s : State) : Result :=
  .next (s.commit (writeFreeze .icache v s.dev) .nothing)

/-- ICACHE_UNFREEZE (R112): `wr 0x084, v` with v[0] = 0.
The whole FREEZE write (R76): FREEZE_MODE is stored, then UNFREEZE runs when ICACHE is Frozen. -/
def execIcacheUnfreeze (v : Word) (s : State) : Result :=
  .next (s.commit (writeFreeze .icache v s.dev) .nothing)

/-- ICACHE_FREEZE_MODE (R113): `wr 0x084, v`.
The whole FREEZE write (R76): `freeze_mode` takes v[1], then an edge of FREEZE_ENA runs its command. -/
def execIcacheFreezeMode (v : Word) (s : State) : Result :=
  .next (s.commit (writeFreeze .icache v s.dev) .nothing)

end Sys2Proof.Machine
end

