-- ==== Sys2Proof/Machine/Counters.lean ====
section
/-! DEFINITION. Machine/Counters.lean: the Access Counter operations (46_access_counters R131, R132). -/

namespace Sys2Proof.Machine

/-- DCACHE_CNT_CLR (R131): `wr 0x040, v` with v[0] = 1. -/
def execDcacheCntClr (v : Word) (s : State) : Result :=
  .next (s.commit (writeCntCtrl .dcache v s.dev) .nothing)

/-- DCACHE_ACS_CNT_READ (R132): `rd 0x044`. -/
def execDcacheAcsCntRead (s : State) : Result :=
  .next (s.commit s.dev (.word (s.dev.dcache.acsCnt)))

/-- DCACHE_MISS_CNT_READ (R132): `rd 0x048`. -/
def execDcacheMissCntRead (s : State) : Result :=
  .next (s.commit s.dev (.word (s.dev.dcache.missCnt)))

/-- DCACHE_PSRAM_MISS_CNT_READ (R132): `rd 0x04C`. -/
def execDcachePsramMissCntRead (s : State) : Result :=
  .next (s.commit s.dev (.word (s.dev.dcache.psramMissCnt)))

/-- ICACHE_CNT_CLR (R131): `wr 0x0C0, v` with v[0] = 1. -/
def execIcacheCntClr (v : Word) (s : State) : Result :=
  .next (s.commit (writeCntCtrl .icache v s.dev) .nothing)

/-- ICACHE_ACS_CNT_READ (R132): `rd 0x0C4`. -/
def execIcacheAcsCntRead (s : State) : Result :=
  .next (s.commit s.dev (.word (s.dev.icache.acsCnt)))

/-- ICACHE_MISS_CNT_READ (R132): `rd 0x0C8`. -/
def execIcacheMissCntRead (s : State) : Result :=
  .next (s.commit s.dev (.word (s.dev.icache.missCnt)))

/-- ICACHE_PSRAM_MISS_CNT_READ (R132): `rd 0x0CC`. -/
def execIcachePsramMissCntRead (s : State) : Result :=
  .next (s.commit s.dev (.word (s.dev.icache.psramMissCnt)))

end Sys2Proof.Machine
end

