-- ==== Sys2Proof/Machine/Engine.lean ====
section
/-! DEFINITION. Machine/Engine.lean: the Lock/Preload/Autoload Engine operations (45_lock_preload_autoload R120 to R127) and the range
registers (10_state R35). The rows of one register are the whole write of it (30_encoding R76, log 3). -/

namespace Sys2Proof.Machine

/-- DCACHE_LOCK0 (R120): `wr 0x008, v` with v[0] = 1.
The whole LOCK_CTRL write (R75, R76): an edge of LOCK0_ENA runs its command, then one of LOCK1_ENA. -/
def execDcacheLock0 (v : Word) (s : State) : Result :=
  .next (s.commit (writeLockCtrl s.cfg .dcache v s.dev) .nothing)

/-- DCACHE_UNLOCK0 (R121): `wr 0x008, v` with v[0] = 0.
The whole LOCK_CTRL write (R75, R76): an edge of LOCK0_ENA runs its command, then one of LOCK1_ENA. -/
def execDcacheUnlock0 (v : Word) (s : State) : Result :=
  .next (s.commit (writeLockCtrl s.cfg .dcache v s.dev) .nothing)

/-- DCACHE_LOCK1 (R120): `wr 0x008, v` with v[2] = 1.
The whole LOCK_CTRL write (R75, R76): an edge of LOCK0_ENA runs its command, then one of LOCK1_ENA. -/
def execDcacheLock1 (v : Word) (s : State) : Result :=
  .next (s.commit (writeLockCtrl s.cfg .dcache v s.dev) .nothing)

/-- DCACHE_UNLOCK1 (R121): `wr 0x008, v` with v[2] = 0.
The whole LOCK_CTRL write (R75, R76): an edge of LOCK0_ENA runs its command, then one of LOCK1_ENA. -/
def execDcacheUnlock1 (v : Word) (s : State) : Result :=
  .next (s.commit (writeLockCtrl s.cfg .dcache v s.dev) .nothing)

/-- DCACHE_LOCK0_ADDR_WRITE (R35): `wr 0x00C, v`. -/
def execDcacheLock0AddrWrite (v : Word) (s : State) : Result :=
  .next (s.commit (writeLockAddr .dcache .s0 v s.dev) .nothing)

/-- DCACHE_LOCK0_SIZE_WRITE (R35): `wr 0x010, v`. -/
def execDcacheLock0SizeWrite (v : Word) (s : State) : Result :=
  .next (s.commit (writeLockSize .dcache .s0 v s.dev) .nothing)

/-- DCACHE_LOCK1_ADDR_WRITE (R35): `wr 0x014, v`. -/
def execDcacheLock1AddrWrite (v : Word) (s : State) : Result :=
  .next (s.commit (writeLockAddr .dcache .s1 v s.dev) .nothing)

/-- DCACHE_LOCK1_SIZE_WRITE (R35): `wr 0x018, v`. -/
def execDcacheLock1SizeWrite (v : Word) (s : State) : Result :=
  .next (s.commit (writeLockSize .dcache .s1 v s.dev) .nothing)

/-- DCACHE_PRELOAD (R122): `wr 0x01C, v` with v[0] = 1.
PRELOAD_ORDER is stored first. -/
def execDcachePreload (v : Word) (s : State) : Result :=
  .next (s.commit (writePreloadCtrl s.cfg .dcache v s.dev) .nothing)

/-- DCACHE_PRELOAD_ADDR_WRITE (R35): `wr 0x020, v`. -/
def execDcachePreloadAddrWrite (v : Word) (s : State) : Result :=
  .next (s.commit (writePreloadAddr .dcache v s.dev) .nothing)

/-- DCACHE_PRELOAD_SIZE_WRITE (R35): `wr 0x024, v`. -/
def execDcachePreloadSizeWrite (v : Word) (s : State) : Result :=
  .next (s.commit (writePreloadSize .dcache v s.dev) .nothing)

/-- DCACHE_AUTOLOAD_ARM0 (R123): `wr 0x028, v` with v[0] = 1.
The whole AUTOLOAD_CTRL write (R75, R76): the triggers and the order are stored, then an edge of SCT0_ENA runs
its command, then one of SCT1_ENA. -/
def execDcacheAutoloadArm0 (v : Word) (s : State) : Result :=
  .next (s.commit (writeAutoloadCtrl s.cfg .dcache v s.dev) .nothing)

/-- DCACHE_AUTOLOAD_DISARM0 (R124): `wr 0x028, v` with v[0] = 0.
The whole AUTOLOAD_CTRL write (R75, R76): the triggers and the order are stored, then an edge of SCT0_ENA runs
its command, then one of SCT1_ENA. -/
def execDcacheAutoloadDisarm0 (v : Word) (s : State) : Result :=
  .next (s.commit (writeAutoloadCtrl s.cfg .dcache v s.dev) .nothing)

/-- DCACHE_AUTOLOAD_ARM1 (R123): `wr 0x028, v` with v[2] = 1.
The whole AUTOLOAD_CTRL write (R75, R76): the triggers and the order are stored, then an edge of SCT0_ENA runs
its command, then one of SCT1_ENA. -/
def execDcacheAutoloadArm1 (v : Word) (s : State) : Result :=
  .next (s.commit (writeAutoloadCtrl s.cfg .dcache v s.dev) .nothing)

/-- DCACHE_AUTOLOAD_DISARM1 (R124): `wr 0x028, v` with v[2] = 0.
The whole AUTOLOAD_CTRL write (R75, R76): the triggers and the order are stored, then an edge of SCT0_ENA runs
its command, then one of SCT1_ENA. -/
def execDcacheAutoloadDisarm1 (v : Word) (s : State) : Result :=
  .next (s.commit (writeAutoloadCtrl s.cfg .dcache v s.dev) .nothing)

/-- DCACHE_AUTOLOAD_SCT0_ADDR_WRITE (R35): `wr 0x02C, v`. -/
def execDcacheAutoloadSct0AddrWrite (v : Word) (s : State) : Result :=
  .next (s.commit (writeAutoloadAddr .dcache .s0 v s.dev) .nothing)

/-- DCACHE_AUTOLOAD_SCT0_SIZE_WRITE (R35): `wr 0x030, v`. -/
def execDcacheAutoloadSct0SizeWrite (v : Word) (s : State) : Result :=
  .next (s.commit (writeAutoloadSize .dcache .s0 v s.dev) .nothing)

/-- DCACHE_AUTOLOAD_SCT1_ADDR_WRITE (R35): `wr 0x034, v`. -/
def execDcacheAutoloadSct1AddrWrite (v : Word) (s : State) : Result :=
  .next (s.commit (writeAutoloadAddr .dcache .s1 v s.dev) .nothing)

/-- DCACHE_AUTOLOAD_SCT1_SIZE_WRITE (R35): `wr 0x038, v`. -/
def execDcacheAutoloadSct1SizeWrite (v : Word) (s : State) : Result :=
  .next (s.commit (writeAutoloadSize .dcache .s1 v s.dev) .nothing)

/-- DCACHE_INVALIDATE (R126): `wr 0x03C, v` with v[0] = 1. -/
def execDcacheInvalidate (v : Word) (s : State) : Result :=
  .next (s.commit (writeSyncCtrl s.cfg .dcache v s.dev) .nothing)

/-- ICACHE_LOCK0 (R120): `wr 0x088, v` with v[0] = 1.
The whole LOCK_CTRL write (R75, R76): an edge of LOCK0_ENA runs its command, then one of LOCK1_ENA. -/
def execIcacheLock0 (v : Word) (s : State) : Result :=
  .next (s.commit (writeLockCtrl s.cfg .icache v s.dev) .nothing)

/-- ICACHE_UNLOCK0 (R121): `wr 0x088, v` with v[0] = 0.
The whole LOCK_CTRL write (R75, R76): an edge of LOCK0_ENA runs its command, then one of LOCK1_ENA. -/
def execIcacheUnlock0 (v : Word) (s : State) : Result :=
  .next (s.commit (writeLockCtrl s.cfg .icache v s.dev) .nothing)

/-- ICACHE_LOCK1 (R120): `wr 0x088, v` with v[2] = 1.
The whole LOCK_CTRL write (R75, R76): an edge of LOCK0_ENA runs its command, then one of LOCK1_ENA. -/
def execIcacheLock1 (v : Word) (s : State) : Result :=
  .next (s.commit (writeLockCtrl s.cfg .icache v s.dev) .nothing)

/-- ICACHE_UNLOCK1 (R121): `wr 0x088, v` with v[2] = 0.
The whole LOCK_CTRL write (R75, R76): an edge of LOCK0_ENA runs its command, then one of LOCK1_ENA. -/
def execIcacheUnlock1 (v : Word) (s : State) : Result :=
  .next (s.commit (writeLockCtrl s.cfg .icache v s.dev) .nothing)

/-- ICACHE_LOCK0_ADDR_WRITE (R35): `wr 0x08C, v`. -/
def execIcacheLock0AddrWrite (v : Word) (s : State) : Result :=
  .next (s.commit (writeLockAddr .icache .s0 v s.dev) .nothing)

/-- ICACHE_LOCK0_SIZE_WRITE (R35): `wr 0x090, v`. -/
def execIcacheLock0SizeWrite (v : Word) (s : State) : Result :=
  .next (s.commit (writeLockSize .icache .s0 v s.dev) .nothing)

/-- ICACHE_LOCK1_ADDR_WRITE (R35): `wr 0x094, v`. -/
def execIcacheLock1AddrWrite (v : Word) (s : State) : Result :=
  .next (s.commit (writeLockAddr .icache .s1 v s.dev) .nothing)

/-- ICACHE_LOCK1_SIZE_WRITE (R35): `wr 0x098, v`. -/
def execIcacheLock1SizeWrite (v : Word) (s : State) : Result :=
  .next (s.commit (writeLockSize .icache .s1 v s.dev) .nothing)

/-- ICACHE_PRELOAD (R122): `wr 0x09C, v` with v[0] = 1.
PRELOAD_ORDER is stored first. -/
def execIcachePreload (v : Word) (s : State) : Result :=
  .next (s.commit (writePreloadCtrl s.cfg .icache v s.dev) .nothing)

/-- ICACHE_PRELOAD_ADDR_WRITE (R35): `wr 0x0A0, v`. -/
def execIcachePreloadAddrWrite (v : Word) (s : State) : Result :=
  .next (s.commit (writePreloadAddr .icache v s.dev) .nothing)

/-- ICACHE_PRELOAD_SIZE_WRITE (R35): `wr 0x0A4, v`. -/
def execIcachePreloadSizeWrite (v : Word) (s : State) : Result :=
  .next (s.commit (writePreloadSize .icache v s.dev) .nothing)

/-- ICACHE_AUTOLOAD_ARM0 (R123): `wr 0x0A8, v` with v[0] = 1.
The whole AUTOLOAD_CTRL write (R75, R76): the triggers and the order are stored, then an edge of SCT0_ENA runs
its command, then one of SCT1_ENA. -/
def execIcacheAutoloadArm0 (v : Word) (s : State) : Result :=
  .next (s.commit (writeAutoloadCtrl s.cfg .icache v s.dev) .nothing)

/-- ICACHE_AUTOLOAD_DISARM0 (R124): `wr 0x0A8, v` with v[0] = 0.
The whole AUTOLOAD_CTRL write (R75, R76): the triggers and the order are stored, then an edge of SCT0_ENA runs
its command, then one of SCT1_ENA. -/
def execIcacheAutoloadDisarm0 (v : Word) (s : State) : Result :=
  .next (s.commit (writeAutoloadCtrl s.cfg .icache v s.dev) .nothing)

/-- ICACHE_AUTOLOAD_ARM1 (R123): `wr 0x0A8, v` with v[2] = 1.
The whole AUTOLOAD_CTRL write (R75, R76): the triggers and the order are stored, then an edge of SCT0_ENA runs
its command, then one of SCT1_ENA. -/
def execIcacheAutoloadArm1 (v : Word) (s : State) : Result :=
  .next (s.commit (writeAutoloadCtrl s.cfg .icache v s.dev) .nothing)

/-- ICACHE_AUTOLOAD_DISARM1 (R124): `wr 0x0A8, v` with v[2] = 0.
The whole AUTOLOAD_CTRL write (R75, R76): the triggers and the order are stored, then an edge of SCT0_ENA runs
its command, then one of SCT1_ENA. -/
def execIcacheAutoloadDisarm1 (v : Word) (s : State) : Result :=
  .next (s.commit (writeAutoloadCtrl s.cfg .icache v s.dev) .nothing)

/-- ICACHE_AUTOLOAD_SCT0_ADDR_WRITE (R35): `wr 0x0AC, v`. -/
def execIcacheAutoloadSct0AddrWrite (v : Word) (s : State) : Result :=
  .next (s.commit (writeAutoloadAddr .icache .s0 v s.dev) .nothing)

/-- ICACHE_AUTOLOAD_SCT0_SIZE_WRITE (R35): `wr 0x0B0, v`. -/
def execIcacheAutoloadSct0SizeWrite (v : Word) (s : State) : Result :=
  .next (s.commit (writeAutoloadSize .icache .s0 v s.dev) .nothing)

/-- ICACHE_AUTOLOAD_SCT1_ADDR_WRITE (R35): `wr 0x0B4, v`. -/
def execIcacheAutoloadSct1AddrWrite (v : Word) (s : State) : Result :=
  .next (s.commit (writeAutoloadAddr .icache .s1 v s.dev) .nothing)

/-- ICACHE_AUTOLOAD_SCT1_SIZE_WRITE (R35): `wr 0x0B8, v`. -/
def execIcacheAutoloadSct1SizeWrite (v : Word) (s : State) : Result :=
  .next (s.commit (writeAutoloadSize .icache .s1 v s.dev) .nothing)

/-- ICACHE_INVALIDATE (R126): `wr 0x0BC, v` with v[0] = 1. -/
def execIcacheInvalidate (v : Word) (s : State) : Result :=
  .next (s.commit (writeSyncCtrl s.cfg .icache v s.dev) .nothing)

/-- EVICT (R127): the environment evicts page p of cache c.
Enabled when the page is resident and not pinned and the cache is not Frozen; otherwise there is no step. -/
def execEvict (c : CacheId) (p : BitVec 9) (s : State) : Result :=
  if (s.dev.cache c).resident.getLsbD p.toNat = true ∧ pinned s.cfg c (s.dev.cache c) p.toNat = false ∧
      (s.dev.cache c).cstate ≠ .frozen then
    .next (s.commit (s.dev.setCache c
      { s.dev.cache c with resident := clearResident (s.dev.cache c).resident p.toNat }) .nothing)
  else .refused .evictNotEnabled

end Sys2Proof.Machine
end

