-- ==== Sys2Proof/Machine/Interrupts.lean ====
section
/-! DEFINITION. Machine/Interrupts.lean: the interrupt and fault-record operations (10_state R44, R45; 60_exceptions R136, R145, R146). -/

namespace Sys2Proof.Machine

/-- INT_ST_READ (R44): `rd 0x100`. -/
def execIntStRead (s : State) : Result :=
  .next (s.commit s.dev (.word (fieldWord 0 s.dev.intSt)))

/-- INT_CLR (R145): `wr 0x100, v`. -/
def execIntClr (v : Word) (s : State) : Result :=
  .next (s.commit (clearStatus v s.dev) .nothing)

/-- INT_ENA_READ (R45): `rd 0x104`. -/
def execIntEnaRead (s : State) : Result :=
  .next (s.commit s.dev (.word (fieldWord 0 s.dev.intEna)))

/-- INT_ENA (R146): `wr 0x104, v`. -/
def execIntEna (v : Word) (s : State) : Result :=
  .next (s.commit (writeIntEna v s.dev) .nothing)

/-- FAULT_VADDR_READ (R136): `rd 0x108`. -/
def execFaultVaddrRead (s : State) : Result :=
  .next (s.commit s.dev (.word (s.dev.faultVaddr)))

/-- FAULT_INFO_READ (R136): `rd 0x10C`. -/
def execFaultInfoRead (s : State) : Result :=
  .next (s.commit s.dev (.word (s.dev.faultInfo)))

end Sys2Proof.Machine
end

