-- ==== Sys2Proof/Machine/MmuTable.lean ====
section
/-! DEFINITION. Machine/MmuTable.lean: the MMU Table operations (41_mmu_table R86 to R89). -/

namespace Sys2Proof.Machine

/-- MMU_READ (R87): `rd 0x800 + 4*i`. -/
def execMmuRead (i : BitVec 9) (s : State) : Result :=
  .next (s.commit s.dev (.word ((s.dev.entry i.toNat).encode)))

/-- MMU_WRITE (R86): `wr 0x800 + 4*i, v`. -/
def execMmuWrite (i : BitVec 9) (v : Word) (s : State) : Result :=
  .next (s.commit (writeMmu i v s.dev) .nothing)

/-- MMU_GET (R89): the MMU port operation GET of any natural index.
An index of 512 or more answers OutOfRange and changes nothing. -/
def execMmuGet (index : Nat) (s : State) : Result :=
  if nEntries ≤ index then .next (s.commit s.dev .outOfRange)
  else .next (s.commit s.dev (.entry (s.dev.entry index).page (s.dev.entry index).invalid))

/-- MMU_SET (R88): the MMU port operation SET.
An index of 512 or more answers OutOfRange and changes nothing. -/
def execMmuSet (index : Nat) (page : BitVec 8) (invalid : Bool) (s : State) : Result :=
  if nEntries ≤ index then .next (s.commit s.dev .outOfRange)
  else .next (s.commit (s.dev.setEntry index { page := page, invalid := invalid }) (.ok []))

end Sys2Proof.Machine
end

