-- ==== Sys2Proof/Machine/PermissionGate.lean ====
section
/-! DEFINITION. Machine/PermissionGate.lean: the permission-table operations (43_permission_gate R105, R106, R107). -/

namespace Sys2Proof.Machine

/-- DBUS_PMS_SET_BOUNDARY0 (R105): `wr 0x050, v`. -/
def execDbusPmsSetBoundary0 (v : Word) (s : State) : Result :=
  .next (s.commit (pmsSetBoundary .dbus .k0 v s.dev) .nothing)

/-- DBUS_PMS_SET_BOUNDARY1 (R105): `wr 0x054, v`. -/
def execDbusPmsSetBoundary1 (v : Word) (s : State) : Result :=
  .next (s.commit (pmsSetBoundary .dbus .k1 v s.dev) .nothing)

/-- DBUS_PMS_SET_BOUNDARY2 (R105): `wr 0x058, v`. -/
def execDbusPmsSetBoundary2 (v : Word) (s : State) : Result :=
  .next (s.commit (pmsSetBoundary .dbus .k2 v s.dev) .nothing)

/-- DBUS_PMS_SET_ATTR0 (R106): `wr 0x05C, v`. -/
def execDbusPmsSetAttr0 (v : Word) (s : State) : Result :=
  .next (s.commit (pmsSetAttr .dbus .k0 v s.dev) .nothing)

/-- DBUS_PMS_SET_ATTR1 (R106): `wr 0x060, v`. -/
def execDbusPmsSetAttr1 (v : Word) (s : State) : Result :=
  .next (s.commit (pmsSetAttr .dbus .k1 v s.dev) .nothing)

/-- DBUS_PMS_SET_ATTR2 (R106): `wr 0x064, v`. -/
def execDbusPmsSetAttr2 (v : Word) (s : State) : Result :=
  .next (s.commit (pmsSetAttr .dbus .k2 v s.dev) .nothing)

/-- DBUS_PMS_LOCK (R107): `wr 0x068, v`. -/
def execDbusPmsLock (v : Word) (s : State) : Result :=
  .next (s.commit (pmsLock .dbus v s.dev) .nothing)

/-- IBUS_PMS_SET_BOUNDARY0 (R105): `wr 0x0D0, v`. -/
def execIbusPmsSetBoundary0 (v : Word) (s : State) : Result :=
  .next (s.commit (pmsSetBoundary .ibus .k0 v s.dev) .nothing)

/-- IBUS_PMS_SET_BOUNDARY1 (R105): `wr 0x0D4, v`. -/
def execIbusPmsSetBoundary1 (v : Word) (s : State) : Result :=
  .next (s.commit (pmsSetBoundary .ibus .k1 v s.dev) .nothing)

/-- IBUS_PMS_SET_BOUNDARY2 (R105): `wr 0x0D8, v`. -/
def execIbusPmsSetBoundary2 (v : Word) (s : State) : Result :=
  .next (s.commit (pmsSetBoundary .ibus .k2 v s.dev) .nothing)

/-- IBUS_PMS_SET_ATTR0 (R106): `wr 0x0DC, v`. -/
def execIbusPmsSetAttr0 (v : Word) (s : State) : Result :=
  .next (s.commit (pmsSetAttr .ibus .k0 v s.dev) .nothing)

/-- IBUS_PMS_SET_ATTR1 (R106): `wr 0x0E0, v`. -/
def execIbusPmsSetAttr1 (v : Word) (s : State) : Result :=
  .next (s.commit (pmsSetAttr .ibus .k1 v s.dev) .nothing)

/-- IBUS_PMS_SET_ATTR2 (R106): `wr 0x0E4, v`. -/
def execIbusPmsSetAttr2 (v : Word) (s : State) : Result :=
  .next (s.commit (pmsSetAttr .ibus .k2 v s.dev) .nothing)

/-- IBUS_PMS_LOCK (R107): `wr 0x0E8, v`. -/
def execIbusPmsLock (v : Word) (s : State) : Result :=
  .next (s.commit (pmsLock .ibus v s.dev) .nothing)

end Sys2Proof.Machine
end

