-- ==== Sys2Proof/Machine/RegisterFile.lean ====
section
/-! DEFINITION. Machine/RegisterFile.lean: the Register File operations (40_register_file R80, R81). -/

namespace Sys2Proof.Machine

/-- REG_READ (R80): `rd off`.
An unmapped offset reads 0; a read changes no state of the device. -/
def execRegRead (off : BitVec 12) (s : State) : Result :=
  if alignedOffset off then .next (s.commit s.dev (.word (readReg (regAt off) s.dev)))
  else .refused .unalignedOffset

/-- REG_WRITE (R81): `wr off, v`.
The store phase, then the command phase, of the register at the offset; an unmapped offset ignores it. -/
def execRegWrite (off : BitVec 12) (v : Word) (s : State) : Result :=
  if alignedOffset off then .next (s.commit (writeReg s.cfg (regAt off) v s.dev) .nothing)
  else .refused .unalignedOffset

end Sys2Proof.Machine
end

