-- ==== Sys2Proof/Machine/ResetOp.lean ====
section
/-! DEFINITION. Machine/ResetOp.lean: the reset input (70_reset_and_hazards R156). -/

namespace Sys2Proof.Machine

/-- RESET (R156): the reset input.
The whole device takes its reset values in one step; the stores and the parameters stay. -/
def execReset (s : State) : Result :=
  .next (s.commit (Device.reset s.cfg) .nothing)

end Sys2Proof.Machine
end

