-- ==== Sys2Proof/Machine/Dispatch.lean ====
section
/-! DEFINITION. Machine/Dispatch.lean: one arm for each constructor of `Instr`, each a direct call of its meaning. -/

namespace Sys2Proof.Machine

def exec (i : Instr) (s : State) : Host.Outcome State Fault Refusal :=
  match i with
  | .regRead off => Sys2Proof.Machine.execRegRead off s
  | .regWrite off v => Sys2Proof.Machine.execRegWrite off v s
  | .mmuRead n => Sys2Proof.Machine.execMmuRead n s
  | .mmuWrite n v => Sys2Proof.Machine.execMmuWrite n v s
  | .mmuGet index => Sys2Proof.Machine.execMmuGet index s
  | .mmuSet index page invalid => Sys2Proof.Machine.execMmuSet index page invalid s
  | .dcacheEnable v => Sys2Proof.Machine.execDcacheEnable v s
  | .dcacheDisable v => Sys2Proof.Machine.execDcacheDisable v s
  | .dcacheShut v => Sys2Proof.Machine.execDcacheShut v s
  | .dcacheWrap v => Sys2Proof.Machine.execDcacheWrap v s
  | .dcacheFreeze v => Sys2Proof.Machine.execDcacheFreeze v s
  | .dcacheUnfreeze v => Sys2Proof.Machine.execDcacheUnfreeze v s
  | .dcacheFreezeMode v => Sys2Proof.Machine.execDcacheFreezeMode v s
  | .dcacheLock0 v => Sys2Proof.Machine.execDcacheLock0 v s
  | .dcacheUnlock0 v => Sys2Proof.Machine.execDcacheUnlock0 v s
  | .dcacheLock1 v => Sys2Proof.Machine.execDcacheLock1 v s
  | .dcacheUnlock1 v => Sys2Proof.Machine.execDcacheUnlock1 v s
  | .dcacheLock0AddrWrite v => Sys2Proof.Machine.execDcacheLock0AddrWrite v s
  | .dcacheLock0SizeWrite v => Sys2Proof.Machine.execDcacheLock0SizeWrite v s
  | .dcacheLock1AddrWrite v => Sys2Proof.Machine.execDcacheLock1AddrWrite v s
  | .dcacheLock1SizeWrite v => Sys2Proof.Machine.execDcacheLock1SizeWrite v s
  | .dcachePreload v => Sys2Proof.Machine.execDcachePreload v s
  | .dcachePreloadAddrWrite v => Sys2Proof.Machine.execDcachePreloadAddrWrite v s
  | .dcachePreloadSizeWrite v => Sys2Proof.Machine.execDcachePreloadSizeWrite v s
  | .dcacheAutoloadArm0 v => Sys2Proof.Machine.execDcacheAutoloadArm0 v s
  | .dcacheAutoloadDisarm0 v => Sys2Proof.Machine.execDcacheAutoloadDisarm0 v s
  | .dcacheAutoloadArm1 v => Sys2Proof.Machine.execDcacheAutoloadArm1 v s
  | .dcacheAutoloadDisarm1 v => Sys2Proof.Machine.execDcacheAutoloadDisarm1 v s
  | .dcacheAutoloadSct0AddrWrite v => Sys2Proof.Machine.execDcacheAutoloadSct0AddrWrite v s
  | .dcacheAutoloadSct0SizeWrite v => Sys2Proof.Machine.execDcacheAutoloadSct0SizeWrite v s
  | .dcacheAutoloadSct1AddrWrite v => Sys2Proof.Machine.execDcacheAutoloadSct1AddrWrite v s
  | .dcacheAutoloadSct1SizeWrite v => Sys2Proof.Machine.execDcacheAutoloadSct1SizeWrite v s
  | .dcacheInvalidate v => Sys2Proof.Machine.execDcacheInvalidate v s
  | .dcacheCntClr v => Sys2Proof.Machine.execDcacheCntClr v s
  | .dcacheAcsCntRead => Sys2Proof.Machine.execDcacheAcsCntRead s
  | .dcacheMissCntRead => Sys2Proof.Machine.execDcacheMissCntRead s
  | .dcachePsramMissCntRead => Sys2Proof.Machine.execDcachePsramMissCntRead s
  | .dbusPmsSetBoundary0 v => Sys2Proof.Machine.execDbusPmsSetBoundary0 v s
  | .dbusPmsSetBoundary1 v => Sys2Proof.Machine.execDbusPmsSetBoundary1 v s
  | .dbusPmsSetBoundary2 v => Sys2Proof.Machine.execDbusPmsSetBoundary2 v s
  | .dbusPmsSetAttr0 v => Sys2Proof.Machine.execDbusPmsSetAttr0 v s
  | .dbusPmsSetAttr1 v => Sys2Proof.Machine.execDbusPmsSetAttr1 v s
  | .dbusPmsSetAttr2 v => Sys2Proof.Machine.execDbusPmsSetAttr2 v s
  | .dbusPmsLock v => Sys2Proof.Machine.execDbusPmsLock v s
  | .icacheEnable v => Sys2Proof.Machine.execIcacheEnable v s
  | .icacheDisable v => Sys2Proof.Machine.execIcacheDisable v s
  | .icacheShut v => Sys2Proof.Machine.execIcacheShut v s
  | .icacheWrap v => Sys2Proof.Machine.execIcacheWrap v s
  | .icacheFreeze v => Sys2Proof.Machine.execIcacheFreeze v s
  | .icacheUnfreeze v => Sys2Proof.Machine.execIcacheUnfreeze v s
  | .icacheFreezeMode v => Sys2Proof.Machine.execIcacheFreezeMode v s
  | .icacheLock0 v => Sys2Proof.Machine.execIcacheLock0 v s
  | .icacheUnlock0 v => Sys2Proof.Machine.execIcacheUnlock0 v s
  | .icacheLock1 v => Sys2Proof.Machine.execIcacheLock1 v s
  | .icacheUnlock1 v => Sys2Proof.Machine.execIcacheUnlock1 v s
  | .icacheLock0AddrWrite v => Sys2Proof.Machine.execIcacheLock0AddrWrite v s
  | .icacheLock0SizeWrite v => Sys2Proof.Machine.execIcacheLock0SizeWrite v s
  | .icacheLock1AddrWrite v => Sys2Proof.Machine.execIcacheLock1AddrWrite v s
  | .icacheLock1SizeWrite v => Sys2Proof.Machine.execIcacheLock1SizeWrite v s
  | .icachePreload v => Sys2Proof.Machine.execIcachePreload v s
  | .icachePreloadAddrWrite v => Sys2Proof.Machine.execIcachePreloadAddrWrite v s
  | .icachePreloadSizeWrite v => Sys2Proof.Machine.execIcachePreloadSizeWrite v s
  | .icacheAutoloadArm0 v => Sys2Proof.Machine.execIcacheAutoloadArm0 v s
  | .icacheAutoloadDisarm0 v => Sys2Proof.Machine.execIcacheAutoloadDisarm0 v s
  | .icacheAutoloadArm1 v => Sys2Proof.Machine.execIcacheAutoloadArm1 v s
  | .icacheAutoloadDisarm1 v => Sys2Proof.Machine.execIcacheAutoloadDisarm1 v s
  | .icacheAutoloadSct0AddrWrite v => Sys2Proof.Machine.execIcacheAutoloadSct0AddrWrite v s
  | .icacheAutoloadSct0SizeWrite v => Sys2Proof.Machine.execIcacheAutoloadSct0SizeWrite v s
  | .icacheAutoloadSct1AddrWrite v => Sys2Proof.Machine.execIcacheAutoloadSct1AddrWrite v s
  | .icacheAutoloadSct1SizeWrite v => Sys2Proof.Machine.execIcacheAutoloadSct1SizeWrite v s
  | .icacheInvalidate v => Sys2Proof.Machine.execIcacheInvalidate v s
  | .icacheCntClr v => Sys2Proof.Machine.execIcacheCntClr v s
  | .icacheAcsCntRead => Sys2Proof.Machine.execIcacheAcsCntRead s
  | .icacheMissCntRead => Sys2Proof.Machine.execIcacheMissCntRead s
  | .icachePsramMissCntRead => Sys2Proof.Machine.execIcachePsramMissCntRead s
  | .ibusPmsSetBoundary0 v => Sys2Proof.Machine.execIbusPmsSetBoundary0 v s
  | .ibusPmsSetBoundary1 v => Sys2Proof.Machine.execIbusPmsSetBoundary1 v s
  | .ibusPmsSetBoundary2 v => Sys2Proof.Machine.execIbusPmsSetBoundary2 v s
  | .ibusPmsSetAttr0 v => Sys2Proof.Machine.execIbusPmsSetAttr0 v s
  | .ibusPmsSetAttr1 v => Sys2Proof.Machine.execIbusPmsSetAttr1 v s
  | .ibusPmsSetAttr2 v => Sys2Proof.Machine.execIbusPmsSetAttr2 v s
  | .ibusPmsLock v => Sys2Proof.Machine.execIbusPmsLock v s
  | .intStRead => Sys2Proof.Machine.execIntStRead s
  | .intClr v => Sys2Proof.Machine.execIntClr v s
  | .intEnaRead => Sys2Proof.Machine.execIntEnaRead s
  | .intEna v => Sys2Proof.Machine.execIntEna v s
  | .faultVaddrRead => Sys2Proof.Machine.execFaultVaddrRead s
  | .faultInfoRead => Sys2Proof.Machine.execFaultInfoRead s
  | .ibusRead w va len => Sys2Proof.Machine.execIbusRead w va len s
  | .ibusWrite w va wdata => Sys2Proof.Machine.execIbusWrite w va wdata s
  | .ibusFetch w va len => Sys2Proof.Machine.execIbusFetch w va len s
  | .dbusRead w va len => Sys2Proof.Machine.execDbusRead w va len s
  | .dbusWrite w va wdata => Sys2Proof.Machine.execDbusWrite w va wdata s
  | .dbusFetch w va len => Sys2Proof.Machine.execDbusFetch w va len s
  | .evict c p => Sys2Proof.Machine.execEvict c p s
  | .reset => Sys2Proof.Machine.execReset s

end Sys2Proof.Machine
end

