-- ==== Sys2Proof/Machine/Step.lean ====
section
/-! DEFINITION. Machine/Step.lean: one step: fetch the next event of the program, decode it, run it, advance
(10_state R17, 20_memory R61). -/

namespace Sys2Proof.Machine

/-- One step of the machine. A configuration that breaks 00_scope R9 is refused. A transaction is decoded and run as
one atomic operation (00_scope R6); a write of the environment into a store is a step of its own (20_memory R58). -/
def step (s : State) : Host.Outcome State Fault Refusal :=
  if s.cfg.valid then
    match fetch s with
    | none => .fault .noTransaction
    | some (.storeWrite st off bytes) => .next (advance (memWrite st off bytes s))
    | some (.op t) =>
      match decode t with
      | .error r => .refused (.rejected r)
      | .ok i => advanceResult (exec i s)
  else .refused .invalidConfiguration

/-- The state with the transaction of a table key as its next event (host-fixed name): the program up to the current
position, then that transaction. The fetch needs nothing else. -/
def State.withFetchWord (s : State) (nbits w : Nat) : State :=
  { s with
    program := s.program.take s.position ++ (tableTransaction nbits w).toList.map Event.op
    position := min s.position s.program.length }

end Sys2Proof.Machine
end

