-- ==== Sys2Proof/Safety.lean ====
section
/-! DEFINITION. Safety.lean: what a safe state is, in the terms the statements use: the machine invariant `Inv`, the
residency of a page, the pages a locked section protects, the fault record as one value, and which instructions are
bus accesses. -/

namespace Sys2Proof.Machine

/-- `resident[c][q] = 1` (10_state R25). -/
def Device.residentAt (d : Device) (c : CacheId) (q : Nat) : Bool :=
  (d.cache c).resident.getLsbD q

/-- The fault record (10_state R28). -/
def Device.faultRecord (d : Device) : Word × BitVec 4 × BitVec 10 :=
  (d.faultVaddr, d.faultCode, d.faultContent)

/-- The boundaries and attributes of a permission table, without its lock flags (43 R107). -/
def PmsTable.rules (t : PmsTable) : (BitVec 12 × BitVec 12 × BitVec 12) × (BitVec 8 × BitVec 8 × BitVec 8) :=
  ((t.bound0, t.bound1, t.bound2), (t.attr0, t.attr1, t.attr2))

/-- Bits 3 and 7 of every attribute byte are 0 (10_state R27, R42). -/
def PmsTable.reservedClear (t : PmsTable) : Prop :=
  t.attr0 &&& 0x88#8 = 0#8 ∧ t.attr1 &&& 0x88#8 = 0#8 ∧ t.attr2 &&& 0x88#8 = 0#8

/-- The captured range of every locked or armed section lies inside the window (45 R120, R123). -/
def capturedRangesValid (p : Params) (c : CacheId) (x : CacheState) : Prop :=
  (x.lock0.ena = true → validRange p c x.lock0.range = true) ∧
  (x.lock1.ena = true → validRange p c x.lock1.range = true) ∧
  (x.al0.ena = true → validRange p c x.al0.range = true) ∧
  (x.al1.ena = true → validRange p c x.al1.range = true)

/-- The invariant of the machine: what the spec says holds of every state a run reaches. -/
structure Inv (s : State) : Prop where
  /-- The parameters meet 00_scope R9. -/
  config : s.cfg.valid = true
  /-- The stores are in canonical form and inside their sizes (20_memory R51). -/
  flashForm : Memory.wf s.flash = true
  psramForm : Memory.wf s.psram = true
  flashBound : Memory.below s.cfg.flashSize s.flash = true
  psramBound : Memory.below s.cfg.psramSize s.psram = true
  /-- The reserved attribute bits are 0 (10_state R27). -/
  ipmsReserved : s.dev.ipms.reservedClear
  dpmsReserved : s.dev.dpms.reservedClear
  /-- `psram_miss_cnt[I]` is always 0 (10_state R26). -/
  ipsramCount : s.dev.icache.psramMissCnt = 0#32
  /-- Fault codes 3 to 15 are never produced (30_encoding R70). -/
  faultCode : s.dev.faultCode.toNat ≤ 2
  /-- Bit 9 of the fault content is 0 (30_encoding R70, R71). -/
  faultContent : s.dev.faultContent.getLsbD 9 = false
  /-- Captured ranges passed the range check (45 R117). -/
  icacheRanges : capturedRangesValid s.cfg .icache s.dev.icache
  dcacheRanges : capturedRangesValid s.cfg .dcache s.dev.dcache
  /-- The position is inside the program or at its last event's successor (10_state R17). -/
  position : s.position ≤ s.program.length

/-- Page q of cache c is protected by a locked section (45 R119, R128). -/
def protectedPage (s : State) (c : CacheId) (q : Nat) : Prop :=
  pinned s.cfg c (s.dev.cache c) q = true

/-- The misses of a cache stay within its accesses (46 R133). -/
def countsConsistent (x : CacheState) : Prop :=
  x.missCnt.toNat + x.psramMissCnt.toNat ≤ x.acsCnt.toNat

/-! ## The rows of the opcode table by cache, bus and section

Each of these names the rows that differ only in the cache, the bus or the section, so that one statement covers them. -/

/-- The four rows of a CTRL write (44 R109, R110, R114, R115). -/
def ctrlRows (c : CacheId) (v : Word) : List Instr :=
  match c with
  | .dcache => [.dcacheEnable v, .dcacheDisable v, .dcacheShut v, .dcacheWrap v]
  | .icache => [.icacheEnable v, .icacheDisable v, .icacheShut v, .icacheWrap v]

/-- The three rows of a FREEZE write (44 R111, R112, R113). -/
def freezeRows (c : CacheId) (v : Word) : List Instr :=
  match c with
  | .dcache => [.dcacheFreeze v, .dcacheUnfreeze v, .dcacheFreezeMode v]
  | .icache => [.icacheFreeze v, .icacheUnfreeze v, .icacheFreezeMode v]

/-- The four rows of a LOCK_CTRL write (45 R120, R121). -/
def lockRows (c : CacheId) (v : Word) : List Instr :=
  match c with
  | .dcache => [.dcacheLock0 v, .dcacheUnlock0 v, .dcacheLock1 v, .dcacheUnlock1 v]
  | .icache => [.icacheLock0 v, .icacheUnlock0 v, .icacheLock1 v, .icacheUnlock1 v]

/-- The four rows of an AUTOLOAD_CTRL write (45 R123, R124). -/
def autoloadRows (c : CacheId) (v : Word) : List Instr :=
  match c with
  | .dcache => [.dcacheAutoloadArm0 v, .dcacheAutoloadDisarm0 v, .dcacheAutoloadArm1 v, .dcacheAutoloadDisarm1 v]
  | .icache => [.icacheAutoloadArm0 v, .icacheAutoloadDisarm0 v, .icacheAutoloadArm1 v, .icacheAutoloadDisarm1 v]

/-- PRELOAD (45 R122). -/
def preloadRow (c : CacheId) (v : Word) : Instr :=
  match c with
  | .dcache => .dcachePreload v
  | .icache => .icachePreload v

/-- INVALIDATE (45 R126). -/
def invalidateRow (c : CacheId) (v : Word) : Instr :=
  match c with
  | .dcache => .dcacheInvalidate v
  | .icache => .icacheInvalidate v

/-- CNT_CLR (46 R131). -/
def cntClrRow (c : CacheId) (v : Word) : Instr :=
  match c with
  | .dcache => .dcacheCntClr v
  | .icache => .icacheCntClr v

/-- PRELOAD_ADDR_WRITE (10_state R35). -/
def preloadAddrRow (c : CacheId) (v : Word) : Instr :=
  match c with
  | .dcache => .dcachePreloadAddrWrite v
  | .icache => .icachePreloadAddrWrite v

/-- PRELOAD_SIZE_WRITE (10_state R35). -/
def preloadSizeRow (c : CacheId) (v : Word) : Instr :=
  match c with
  | .dcache => .dcachePreloadSizeWrite v
  | .icache => .icachePreloadSizeWrite v

/-- LOCKs_ADDR_WRITE (10_state R35). -/
def lockAddrRow (c : CacheId) (k : Sec) (v : Word) : Instr :=
  match c, k with
  | .dcache, .s0 => .dcacheLock0AddrWrite v
  | .dcache, .s1 => .dcacheLock1AddrWrite v
  | .icache, .s0 => .icacheLock0AddrWrite v
  | .icache, .s1 => .icacheLock1AddrWrite v

/-- AUTOLOAD_SCTs_ADDR_WRITE (10_state R35). -/
def autoloadAddrRow (c : CacheId) (k : Sec) (v : Word) : Instr :=
  match c, k with
  | .dcache, .s0 => .dcacheAutoloadSct0AddrWrite v
  | .dcache, .s1 => .dcacheAutoloadSct1AddrWrite v
  | .icache, .s0 => .icacheAutoloadSct0AddrWrite v
  | .icache, .s1 => .icacheAutoloadSct1AddrWrite v

/-- LOCKs_SIZE_WRITE (10_state R35). -/
def lockSizeRow (c : CacheId) (k : Sec) (v : Word) : Instr :=
  match c, k with
  | .dcache, .s0 => .dcacheLock0SizeWrite v
  | .dcache, .s1 => .dcacheLock1SizeWrite v
  | .icache, .s0 => .icacheLock0SizeWrite v
  | .icache, .s1 => .icacheLock1SizeWrite v

/-- AUTOLOAD_SCTs_SIZE_WRITE (10_state R35). -/
def autoloadSizeRow (c : CacheId) (k : Sec) (v : Word) : Instr :=
  match c, k with
  | .dcache, .s0 => .dcacheAutoloadSct0SizeWrite v
  | .dcache, .s1 => .dcacheAutoloadSct1SizeWrite v
  | .icache, .s0 => .icacheAutoloadSct0SizeWrite v
  | .icache, .s1 => .icacheAutoloadSct1SizeWrite v

/-- The read of a counter (46 R132). -/
def acsReadRow (c : CacheId) : Instr :=
  match c with
  | .dcache => .dcacheAcsCntRead
  | .icache => .icacheAcsCntRead

/-- The read of a counter (46 R132). -/
def missReadRow (c : CacheId) : Instr :=
  match c with
  | .dcache => .dcacheMissCntRead
  | .icache => .icacheMissCntRead

/-- The read of a counter (46 R132). -/
def psramMissReadRow (c : CacheId) : Instr :=
  match c with
  | .dcache => .dcachePsramMissCntRead
  | .icache => .icachePsramMissCntRead

/-- PMS_SET_BOUNDARY k (43 R105). -/
def pmsBoundaryRow (b : Bus) (k : PmsSec) (v : Word) : Instr :=
  match b, k with
  | .dbus, .k0 => .dbusPmsSetBoundary0 v
  | .dbus, .k1 => .dbusPmsSetBoundary1 v
  | .dbus, .k2 => .dbusPmsSetBoundary2 v
  | .ibus, .k0 => .ibusPmsSetBoundary0 v
  | .ibus, .k1 => .ibusPmsSetBoundary1 v
  | .ibus, .k2 => .ibusPmsSetBoundary2 v

/-- PMS_SET_ATTR k (43 R106). -/
def pmsAttrRow (b : Bus) (k : PmsSec) (v : Word) : Instr :=
  match b, k with
  | .dbus, .k0 => .dbusPmsSetAttr0 v
  | .dbus, .k1 => .dbusPmsSetAttr1 v
  | .dbus, .k2 => .dbusPmsSetAttr2 v
  | .ibus, .k0 => .ibusPmsSetAttr0 v
  | .ibus, .k1 => .ibusPmsSetAttr1 v
  | .ibus, .k2 => .ibusPmsSetAttr2 v

/-- PMS_LOCK (43 R107). -/
def pmsLockRow (b : Bus) (v : Word) : Instr :=
  match b with
  | .dbus => .dbusPmsLock v
  | .ibus => .ibusPmsLock v

/-- The bus operation of a bus and a class; a write carries its bytes, a read or fetch its length (42 R97 to R102). -/
def busRow (b : Bus) (k : AccessClass) (w : World) (va : Word) (len : Nat) (wdata : List Byte) : Instr :=
  match b, k with
  | .ibus, .read => .ibusRead w va len
  | .ibus, .write => .ibusWrite w va wdata
  | .ibus, .fetch => .ibusFetch w va len
  | .dbus, .read => .dbusRead w va len
  | .dbus, .write => .dbusWrite w va wdata
  | .dbus, .fetch => .dbusFetch w va len

/-- The length of a bus operation: a write's is its byte count (42 R98). -/
def accessLen (k : AccessClass) (len : Nat) (wdata : List Byte) : Nat :=
  match k with
  | .read => len
  | .write => wdata.length
  | .fetch => len

/-- The offset of a register of cache c's block: `B + rel` with B 0x000 for DCACHE and 0x080 for ICACHE (30 R74). -/
def blockOffset (c : CacheId) (rel : BitVec 12) : BitVec 12 :=
  match c with
  | .dcache => rel
  | .icache => 0x080#12 + rel

/-- The access passes the refusals and the routing of 42 R95: its length is legal, its bytes lie in the window and in
one page. -/
def routed (p : Params) (b : Bus) (va : Word) (len : Nat) : Prop :=
  1 ≤ len ∧ len ≤ p.maxAccessLen ∧ windowBase p b.cache ≤ va.toNat ∧
    va.toNat + len ≤ windowBase p b.cache + windowSize ∧ va.toNat % pageSize + len ≤ pageSize

end Sys2Proof.Machine
end

