-- ==== Sys2Proof/Certificates/Slice0/Obligations.lean ====
section
/-! DEFINITION. Certificates/Slice0/Obligations.lean: the statements for the provers. Each says which rules of spec/ it
formalises; OBLIGATIONS.json lists them. -/

open Sys2Proof Sys2Proof.Machine

/-! ## Encoding -/

/-- Decoding the encoding of a well-formed instruction gives it back, whatever its operands, for every instruction the
decoder's naming convention picks (30_encoding R66, R67, R68, R74; the convention is log 3). -/
def Obligations.DecodeOfEncodeIsIdentity : Prop :=
  ∀ i : Instr, WellFormed i = true → primary i = true → decode (encode i) = .ok i

/-- The rows one transaction belongs to have one meaning, and the decoder names each well-formed transaction after a
row it belongs to (30_encoding R74, R75, R76; which row names a transaction is the model's choice, log 3). -/
def Obligations.RowsOfOneTransactionHaveOneMeaning : Prop :=
  (∀ (i j : Instr) (s : State), encode i = encode j → exec i s = exec j s) ∧
  (∀ i : Instr, WellFormed i = true → ∃ j : Instr, decode (encode i) = .ok j ∧ encode j = encode i)

/-- A decoded instruction is well-formed, is the row the convention picks, and its encoding is the transaction: no bit of
a transaction is dropped (30_encoding R66 to R69, R74; the convention is the model's choice, log 3). -/
def Obligations.DecodedInstructionEncodesBack : Prop :=
  ∀ (t : Transaction) (i : Instr), decode t = .ok i → WellFormed i = true ∧ primary i = true ∧ encode i = t

/-- Words written out from the opcode table decode, each, to a row they match (30_encoding R76). Where several rows match
(0x100000000001 is ENABLE, SHUT, WRAP and REG_WRITE, 0x108400000000 is UNFREEZE, FREEZE_MODE and REG_WRITE) the row named is
the model's choice (log 3), and so is the layout of a key whose row has no bits for its operands (log 4). -/
def Obligations.SampleTableWordsDecode : Prop :=
  decodeTableWord 48 0x000000000000 = some (.regRead 0x000#12) ∧
  decodeTableWord 48 0x100000000001 = some (.dcacheEnable 1#32) ∧
  decodeTableWord 48 0x108400000000 = some (.icacheUnfreeze 0#32) ∧
  decodeTableWord 48 0x180800000005 = some (.mmuWrite 2#9 5#32) ∧
  decodeTableWord 48 0x110000000002 = some (.intClr 2#32) ∧
  decodeTableWord 8 0xA = some (.dbusFetch .world0 0#32 0) ∧
  decodeTableWord 8 0xB = none

/-- A register transaction at an offset that is not a multiple of 4, or of a width other than 32 bits, is refused. -/
def Obligations.UnalignedOrNarrowRegisterTransactionRefused : Prop :=
  ∀ (s : State) (width : Nat) (off : BitVec 12) (v : Word), width ≠ 32 ∨ off.toNat % 4 ≠ 0 →
    s.cfg.valid = true →
    (fetch s = some (.op (.rd width off)) → ∃ r, step s = .refused r) ∧
    (fetch s = some (.op (.wr width off v)) → ∃ r, step s = .refused r)

/-! ## Steps -/

/-- A step runs the instruction the next transaction decodes to and advances the position by one; no instruction faults
(10_state R17). The number of the draw, the model's own (log 6), moves on too unless the next event equals this one. -/
def Obligations.StepRunsTheDecodedInstruction : Prop :=
  ∀ (s : State) (t : Transaction) (i : Instr), s.cfg.valid = true → fetch s = some (.op t) → decode t = .ok i →
    (∀ s', exec i s = .next s' → step s = .next { s' with
      position := s'.position + 1
      draws := if s.program[s.position + 1]? = s.program[s.position]? then s'.draws else s'.draws + 1 }) ∧
    (∀ r, exec i s = .refused r → step s = .refused r) ∧ (∀ f, exec i s ≠ .fault f)

/-- The other outcomes of a step: an illegal configuration, the end of the program, the environment's write into its
store. Refusing a configuration is 00_scope R9's for the window bases and the model's deduction beyond them: the ranges of
the parameter table and PMS_RESET's reserved bits (log 8). The fault at the program's end is the model's choice (log 1). The
environment's write is 20_memory R58's; that it is an event of the program is the model's choice (log 12). -/
def Obligations.StepWithoutTransaction : Prop :=
  ∀ s : State,
    (s.cfg.valid = false → step s = .refused .invalidConfiguration) ∧
    (s.cfg.valid = true → fetch s = none → step s = .fault .noTransaction) ∧
    (∀ st off bytes, s.cfg.valid = true → fetch s = some (.storeWrite st off bytes) →
      Memory.wf (s.store st) = true → off + bytes.length ≤ storeSize s.cfg st →
      ∃ t, step s = .next t ∧ t.dev = s.dev ∧ t.position = s.position + 1 ∧
        ∀ st' x, t.byteAt st' x =
          if st' = st ∧ off ≤ x ∧ x < off + bytes.length then bytes.getD (x - off) 0#8 else s.byteAt st' x)

/-- No step changes the parameters or the program, and every step advances the position by one (00_scope section 4,
10_state R17). -/
def Obligations.StepKeepsParametersAndAdvances : Prop :=
  ∀ s t : State, step s = .next t → t.cfg = s.cfg ∧ t.program = s.program ∧ t.position = s.position + 1

/-! ## Reset -/

/-- RESET gives every piece of the device's state its reset value in one step and leaves the stores and the parameters
(70_reset_and_hazards R156). -/
def Obligations.ResetGivesTheResetValues : Prop :=
  ∀ s : State, ∃ t : State, exec .reset s = .next t ∧ t = { s with dev := t.dev, answer := .nothing } ∧
    (∀ i, i < 512 → t.dev.entry i = { page := 0#8, invalid := true }) ∧
    (∀ c, (t.dev.cache c).cstate = .disabled ∧ (t.dev.cache c).shut = false ∧ (t.dev.cache c).wrap = false ∧
      (t.dev.cache c).freezeMode = false ∧
      (∀ k, (t.dev.cache c).lock k =
        { addr := 0#32, size := 0#32, ena := false, range := { start := 0#32, size := 0#32 } }) ∧
      (t.dev.cache c).preloadAddr = 0#32 ∧ (t.dev.cache c).preloadSize = 0#32 ∧
      (t.dev.cache c).preloadOrder = false ∧ (t.dev.cache c).preloadDone = false ∧
      (∀ k, (t.dev.cache c).al k =
        { addr := 0#32, size := 0#32, trig := 0#2, ena := false, range := { start := 0#32, size := 0#32 } }) ∧
      (t.dev.cache c).alOrder = false ∧ (t.dev.cache c).invalDone = false ∧
      (∀ q, t.dev.residentAt c q = false) ∧
      (t.dev.cache c).acsCnt = 0#32 ∧ (t.dev.cache c).missCnt = 0#32 ∧ (t.dev.cache c).psramMissCnt = 0#32) ∧
    t.dev.ipms.rules = ((s.cfg.ipmsReset.bound0, s.cfg.ipmsReset.bound1, s.cfg.ipmsReset.bound2),
      (s.cfg.ipmsReset.attr0, s.cfg.ipmsReset.attr1, s.cfg.ipmsReset.attr2)) ∧
    t.dev.dpms.rules = ((s.cfg.dpmsReset.bound0, s.cfg.dpmsReset.bound1, s.cfg.dpmsReset.bound2),
      (s.cfg.dpmsReset.attr0, s.cfg.dpmsReset.attr1, s.cfg.dpmsReset.attr2)) ∧
    t.dev.ipms.lock = 0#3 ∧ t.dev.dpms.lock = 0#3 ∧
    t.dev.faultVaddr = 0#32 ∧ t.dev.faultCode = 0#4 ∧ t.dev.faultContent = 0#10 ∧
    t.dev.intSt = 0#11 ∧ t.dev.intEna = 0#11 ∧ t.dev.intOut = false

/-- The machine right after reset meets the invariant (70_reset_and_hazards R156; the parameters, the empty program and
the empty stores of State.reset are the model's choice, log 1, 2 and 5). -/
def Obligations.ResetStateMeetsTheInvariant : Prop :=
  Inv State.reset

/-- After RESET every bus access inside its window and one page answers TranslationFault unless the permission gate
rejects it, and with the default PMS_RESET the gate rejects none (70_reset_and_hazards R157, which the spec derives from
R156, R95 and R104). -/
def Obligations.AccessAfterResetFaults : Prop :=
  ∀ (s s' : State) (b : Bus) (k : AccessClass) (w : World) (va : Word) (len : Nat) (wdata : List Byte),
    exec .reset s = .next s' → routed s.cfg b va (accessLen k len wdata) →
    ∃ t, exec (busRow b k w va len wdata) s' = .next t ∧
      (t.answer = .translationFault ∨ t.answer = .permissionFault) ∧
      (s.cfg.ipmsReset = PmsReset.default → s.cfg.dpmsReset = PmsReset.default → t.answer = .translationFault)

/-! ## The register file -/

/-- REG_READ of an aligned offset answers a word and changes nothing else; of any other offset it is refused
(40_register_file R80, 20_memory R57). -/
def Obligations.RegisterReadAnswersAWord : Prop :=
  ∀ (s : State) (off : BitVec 12),
    (off.toNat % 4 = 0 → ∃ w, exec (.regRead off) s = .next { s with answer := .word w }) ∧
    (off.toNat % 4 ≠ 0 → exec (.regRead off) s = .refused .unalignedOffset)

/-- Every control register of a cache reads the state its fields reflect, and 0 in every other bit
(10_state R32, R33, R34, R36, R37, R38, R39). -/
def Obligations.ControlRegistersReadTheirState : Prop :=
  ∀ (s : State) (c : CacheId), ∃ w0 w4 w8 w1c w28 w3c : Word,
    exec (.regRead (blockOffset c 0x00)) s = .next { s with answer := .word w0 } ∧
    (∀ n, w0.getLsbD n = ((n == 0 && (s.dev.cache c).cstate != .disabled) ||
      (n == 1 && (s.dev.cache c).shut) || (n == 2 && (s.dev.cache c).wrap))) ∧
    exec (.regRead (blockOffset c 0x04)) s = .next { s with answer := .word w4 } ∧
    (∀ n, w4.getLsbD n = (((n == 0 || n == 2) && (s.dev.cache c).cstate == .frozen) ||
      (n == 1 && (s.dev.cache c).freezeMode))) ∧
    exec (.regRead (blockOffset c 0x08)) s = .next { s with answer := .word w8 } ∧
    (∀ n, w8.getLsbD n = (((n == 0 || n == 1) && ((s.dev.cache c).lock .s0).ena) ||
      ((n == 2 || n == 3) && ((s.dev.cache c).lock .s1).ena))) ∧
    exec (.regRead (blockOffset c 0x1C)) s = .next { s with answer := .word w1c } ∧
    (∀ n, w1c.getLsbD n = ((n == 1 && (s.dev.cache c).preloadDone) || (n == 2 && (s.dev.cache c).preloadOrder))) ∧
    exec (.regRead (blockOffset c 0x28)) s = .next { s with answer := .word w28 } ∧
    (∀ n, w28.getLsbD n = (((n == 0 || n == 1) && ((s.dev.cache c).al .s0).ena) ||
      ((n == 2 || n == 3) && ((s.dev.cache c).al .s1).ena) ||
      (n == 4 && ((s.dev.cache c).al .s0).trig.getLsbD 0) || (n == 5 && ((s.dev.cache c).al .s0).trig.getLsbD 1) ||
      (n == 6 && ((s.dev.cache c).al .s1).trig.getLsbD 0) || (n == 7 && ((s.dev.cache c).al .s1).trig.getLsbD 1) ||
      (n == 8 && (s.dev.cache c).alOrder))) ∧
    exec (.regRead (blockOffset c 0x3C)) s = .next { s with answer := .word w3c } ∧
    (∀ n, w3c.getLsbD n = (n == 1 && (s.dev.cache c).invalDone)) ∧
    exec (.regRead (blockOffset c 0x40)) s = .next { s with answer := .word 0#32 }

/-- The address, size and permission registers read their stored values (10_state R35, R41, R42, R43). -/
def Obligations.ConfigurationRegistersReadBack : Prop :=
  ∀ (s : State) (c : CacheId),
    exec (.regRead (blockOffset c 0x0C)) s = .next { s with answer := .word ((s.dev.cache c).lock .s0).addr } ∧
    exec (.regRead (blockOffset c 0x10)) s = .next { s with answer := .word ((s.dev.cache c).lock .s0).size } ∧
    exec (.regRead (blockOffset c 0x14)) s = .next { s with answer := .word ((s.dev.cache c).lock .s1).addr } ∧
    exec (.regRead (blockOffset c 0x18)) s = .next { s with answer := .word ((s.dev.cache c).lock .s1).size } ∧
    exec (.regRead (blockOffset c 0x20)) s = .next { s with answer := .word (s.dev.cache c).preloadAddr } ∧
    exec (.regRead (blockOffset c 0x24)) s = .next { s with answer := .word (s.dev.cache c).preloadSize } ∧
    exec (.regRead (blockOffset c 0x2C)) s = .next { s with answer := .word ((s.dev.cache c).al .s0).addr } ∧
    exec (.regRead (blockOffset c 0x30)) s = .next { s with answer := .word ((s.dev.cache c).al .s0).size } ∧
    exec (.regRead (blockOffset c 0x34)) s = .next { s with answer := .word ((s.dev.cache c).al .s1).addr } ∧
    exec (.regRead (blockOffset c 0x38)) s = .next { s with answer := .word ((s.dev.cache c).al .s1).size } ∧
    exec (.regRead (blockOffset c 0x50)) s =
      .next { s with answer := .word (((s.dev.pms c.bus).bound .k0).zeroExtend 32) } ∧
    exec (.regRead (blockOffset c 0x54)) s =
      .next { s with answer := .word (((s.dev.pms c.bus).bound .k1).zeroExtend 32) } ∧
    exec (.regRead (blockOffset c 0x58)) s =
      .next { s with answer := .word (((s.dev.pms c.bus).bound .k2).zeroExtend 32) } ∧
    exec (.regRead (blockOffset c 0x5C)) s =
      .next { s with answer := .word (((s.dev.pms c.bus).attr .k0).zeroExtend 32) } ∧
    exec (.regRead (blockOffset c 0x60)) s =
      .next { s with answer := .word (((s.dev.pms c.bus).attr .k1).zeroExtend 32) } ∧
    exec (.regRead (blockOffset c 0x64)) s =
      .next { s with answer := .word (((s.dev.pms c.bus).attr .k2).zeroExtend 32) } ∧
    exec (.regRead (blockOffset c 0x68)) s =
      .next { s with answer := .word ((s.dev.pms c.bus).lock.zeroExtend 32) }

/-- An unmapped offset reads 0 and ignores writes, and neither raises anything (10_state R48). The offsets that a rule
names are 0x000 to 0x068, 0x080 to 0x0E8, 0x100 to 0x10C and the MMU window from 0x800. -/
def Obligations.UnmappedOffsetReadsZeroIgnoresWrites : Prop :=
  ∀ (s : State) (off : BitVec 12) (v : Word), off.toNat % 4 = 0 →
    (0x068 < off.toNat ∧ off.toNat < 0x080) ∨ (0x0E8 < off.toNat ∧ off.toNat < 0x100) ∨
      (0x10C < off.toNat ∧ off.toNat < 0x800) →
    exec (.regRead off) s = .next { s with answer := .word 0#32 } ∧
    exec (.regWrite off v) s = .next { s with answer := .nothing }

/-- REG_WRITE of an aligned offset completes, with the meaning of the row the decoder names it after; a write to a
read-only register changes nothing, a write of 0 to a trigger bit runs no command (40_register_file R81, R83; the row
that names a write is the model's choice, log 3). -/
def Obligations.RegisterWriteCompletes : Prop :=
  ∀ (s : State) (off : BitVec 12) (v : Word),
    (off.toNat % 4 ≠ 0 → exec (.regWrite off v) s = .refused .unalignedOffset) ∧
    (off.toNat % 4 = 0 → ∃ d, exec (.regWrite off v) s = .next { s with dev := d, answer := .nothing }) ∧
    (∀ i, decode (.wr 32 off v) = .ok i → exec (.regWrite off v) s = exec i s) ∧
    (∀ c, off = blockOffset c 0x44 ∨ off = blockOffset c 0x48 ∨ off = blockOffset c 0x4C ∨
        off = 0x108#12 ∨ off = 0x10C#12 →
      exec (.regWrite off v) s = .next { s with answer := .nothing }) ∧
    (∀ c, v.getLsbD 0 = false → off = blockOffset c 0x3C ∨ off = blockOffset c 0x40 →
      exec (.regWrite off v) s = .next { s with answer := .nothing }) ∧
    (∀ c, v.getLsbD 0 = false → off = blockOffset c 0x1C →
      exec (.regWrite off v) s = .next
        { s with dev := s.dev.setCache c { s.dev.cache c with preloadOrder := v.getLsbD 2 }, answer := .nothing })

/-! ## The MMU table -/

/-- MMU_WRITE stores the page number and the invalid flag of one entry and MMU_READ reads them back with the reserved
bits 0, whatever was written (41_mmu_table R85, R86, R87). -/
def Obligations.MmuWindowMasksReservedBits : Prop :=
  ∀ (s : State) (i : BitVec 9) (v : Word), ∃ t, exec (.mmuWrite i v) s = .next t ∧
    t = { s with dev := { s.dev with mmu := t.dev.mmu }, answer := .nothing } ∧
    t.dev.entry i.toNat = { page := v.extractLsb' 0 8, invalid := v.getLsbD 8 } ∧
    (∀ j, j ≠ i.toNat → t.dev.entry j = s.dev.entry j) ∧
    exec (.mmuRead i) t = .next { t with answer := .word (v &&& 0x1FF#32) } ∧
    ∃ w, exec (.mmuRead i) s = .next { s with answer := .word w } ∧
      w.toNat = (s.dev.entry i.toNat).page.toNat + 256 * (s.dev.entry i.toNat).invalid.toNat

/-- MMU_SET then MMU_GET of one index below 512 gives the pair back; an index of 512 or more answers OutOfRange and
changes nothing (41_mmu_table R88, R89). -/
def Obligations.MmuPortRoundTrip : Prop :=
  ∀ (s : State) (index : Nat) (page : BitVec 8) (invalid : Bool),
    (index < 512 → ∃ t, exec (.mmuSet index page invalid) s = .next t ∧
      t = { s with dev := { s.dev with mmu := t.dev.mmu }, answer := .ok [] } ∧
      exec (.mmuGet index) t = .next { t with answer := .entry page invalid } ∧
      (∀ j, j ≠ index → t.dev.entry j = s.dev.entry j) ∧
      exec (.mmuGet index) s =
        .next { s with answer := .entry (s.dev.entry index).page (s.dev.entry index).invalid }) ∧
    (512 ≤ index → exec (.mmuSet index page invalid) s = .next { s with answer := .outOfRange } ∧
      exec (.mmuGet index) s = .next { s with answer := .outOfRange })

/-! ## The cache state controller -/

/-- A CTRL write stores SHUT and WRAP_EN and runs ENABLE or DISABLE on an edge of bit 0: Disabled becomes Enabled,
Enabled becomes Disabled, Frozen stays. Nothing else changes (44_cache_state R109, R110, R114, R115; 30 R76). -/
def Obligations.CtrlWriteFollowsTheStateMachine : Prop :=
  ∀ (s : State) (c : CacheId) (v : Word) (i : Instr), i ∈ ctrlRows c v →
    exec i s = .next { s with
      dev := s.dev.setCache c { s.dev.cache c with
        shut := v.getLsbD 1
        wrap := v.getLsbD 2
        cstate :=
          if (s.dev.cache c).cstate = .disabled ∧ v.getLsbD 0 = true then .enabled
          else if (s.dev.cache c).cstate = .enabled ∧ v.getLsbD 0 = false then .disabled
          else (s.dev.cache c).cstate }
      answer := .nothing }

/-- A FREEZE write stores FREEZE_MODE and runs FREEZE or UNFREEZE on an edge of bit 0: Enabled becomes Frozen, Frozen
becomes Enabled, Disabled stays. Nothing else changes (44_cache_state R111, R112, R113; 30 R76). -/
def Obligations.FreezeWriteFollowsTheStateMachine : Prop :=
  ∀ (s : State) (c : CacheId) (v : Word) (i : Instr), i ∈ freezeRows c v →
    exec i s = .next { s with
      dev := s.dev.setCache c { s.dev.cache c with
        freezeMode := v.getLsbD 1
        cstate :=
          if (s.dev.cache c).cstate = .enabled ∧ v.getLsbD 0 = true then .frozen
          else if (s.dev.cache c).cstate = .frozen ∧ v.getLsbD 0 = false then .enabled
          else (s.dev.cache c).cstate }
      answer := .nothing }

/-! ## Lock, preload, autoload, invalidate, evict -/

/-- A LOCK_CTRL write: for each section, an edge to 1 captures the configured range if it lies in the window and
reports it in INT_ST if it does not; an edge to 0 unlocks; no edge leaves the section. Nothing else changes
(45_lock_preload_autoload R120, R121; 60 R140; 30 R75). -/
def Obligations.LockCtrlWriteLocksAndUnlocks : Prop :=
  ∀ (s : State) (c : CacheId) (v : Word) (i : Instr), i ∈ lockRows c v → ∃ t, exec i s = .next t ∧
    t = { s with
      dev := { s.dev.setCache c { s.dev.cache c with
          lock0 := (t.dev.cache c).lock .s0, lock1 := (t.dev.cache c).lock .s1 } with intSt := t.dev.intSt }
      answer := .nothing } ∧
    (∀ (k : Sec) (l : LockSection) (bit fits : Bool), l = (s.dev.cache c).lock k →
      bit = v.getLsbD (if k = .s0 then 0 else 2) →
      fits = decide (windowBase s.cfg c ≤ l.addr.toNat ∧
        l.addr.toNat + l.size.toNat ≤ windowBase s.cfg c + 33554432) →
      (t.dev.cache c).lock k =
        if bit = l.ena then l
        else if bit = false then { l with ena := false }
        else if fits then { l with ena := true, range := { start := l.addr, size := l.size } } else l) ∧
    (∀ n, t.dev.intSt.getLsbD n = (s.dev.intSt.getLsbD n ||
      (decide (n = (if c = .icache then 4 else 5)) &&
        ((v.getLsbD 0 && !(s.dev.cache c).lock0.ena &&
            !decide (windowBase s.cfg c ≤ (s.dev.cache c).lock0.addr.toNat ∧
              (s.dev.cache c).lock0.addr.toNat + (s.dev.cache c).lock0.size.toNat ≤
                windowBase s.cfg c + 33554432)) ||
          (v.getLsbD 2 && !(s.dev.cache c).lock1.ena &&
            !decide (windowBase s.cfg c ≤ (s.dev.cache c).lock1.addr.toNat ∧
              (s.dev.cache c).lock1.addr.toNat + (s.dev.cache c).lock1.size.toNat ≤
                windowBase s.cfg c + 33554432))))))

/-- An AUTOLOAD_CTRL write stores the triggers and the order; then, for each section, an edge to 1 captures the
configured range if it lies in the window and reports it in INT_ST if it does not; an edge to 0 disarms. Nothing else
changes (45_lock_preload_autoload R123, R124; 10_state R37; 60 R140). -/
def Obligations.AutoloadCtrlWriteArmsAndDisarms : Prop :=
  ∀ (s : State) (c : CacheId) (v : Word) (i : Instr), i ∈ autoloadRows c v → ∃ t, exec i s = .next t ∧
    t = { s with
      dev := { s.dev.setCache c { s.dev.cache c with
          al0 := (t.dev.cache c).al .s0, al1 := (t.dev.cache c).al .s1, alOrder := v.getLsbD 8 } with
        intSt := t.dev.intSt }
      answer := .nothing } ∧
    (∀ (k : Sec) (l : AutoloadSection) (bit fits : Bool),
      l = { (s.dev.cache c).al k with trig := v.extractLsb' (if k = .s0 then 4 else 6) 2 } →
      bit = v.getLsbD (if k = .s0 then 0 else 2) →
      fits = decide (windowBase s.cfg c ≤ l.addr.toNat ∧
        l.addr.toNat + l.size.toNat ≤ windowBase s.cfg c + 33554432) →
      (t.dev.cache c).al k =
        if bit = l.ena then l
        else if bit = false then { l with ena := false }
        else if fits then { l with ena := true, range := { start := l.addr, size := l.size } } else l) ∧
    (∀ n, t.dev.intSt.getLsbD n = (s.dev.intSt.getLsbD n ||
      (decide (n = (if c = .icache then 4 else 5)) &&
        ((v.getLsbD 0 && !(s.dev.cache c).al0.ena &&
            !decide (windowBase s.cfg c ≤ (s.dev.cache c).al0.addr.toNat ∧
              (s.dev.cache c).al0.addr.toNat + (s.dev.cache c).al0.size.toNat ≤
                windowBase s.cfg c + 33554432)) ||
          (v.getLsbD 2 && !(s.dev.cache c).al1.ena &&
            !decide (windowBase s.cfg c ≤ (s.dev.cache c).al1.addr.toNat ∧
              (s.dev.cache c).al1.addr.toNat + (s.dev.cache c).al1.size.toNat ≤
                windowBase s.cfg c + 33554432))))))

/-- PRELOAD stores the order; with a range in the window it sets DONE and, in Enabled, makes every page the range
touches resident and evicts nothing; with any other range it clears DONE and reports it in INT_ST. Nothing else changes
(45_lock_preload_autoload R122). -/
def Obligations.PreloadLoadsItsPages : Prop :=
  ∀ (s : State) (c : CacheId) (v : Word) (fits : Bool), v.getLsbD 0 = true →
    fits = decide (windowBase s.cfg c ≤ (s.dev.cache c).preloadAddr.toNat ∧
      (s.dev.cache c).preloadAddr.toNat + (s.dev.cache c).preloadSize.toNat ≤ windowBase s.cfg c + 33554432) →
    ∃ t, exec (preloadRow c v) s = .next t ∧
      t = { s with
        dev := { s.dev.setCache c { s.dev.cache c with
            resident := (t.dev.cache c).resident, preloadOrder := v.getLsbD 2, preloadDone := fits } with
          intSt := t.dev.intSt }
        answer := .nothing } ∧
      (∀ q, t.dev.residentAt c q = true ↔ s.dev.residentAt c q = true ∨
        (q < 512 ∧ fits = true ∧ (s.dev.cache c).cstate = .enabled ∧ (s.dev.cache c).preloadSize ≠ 0#32 ∧
          ((s.dev.cache c).preloadAddr.toNat - windowBase s.cfg c) / 65536 ≤ q ∧
          q ≤ ((s.dev.cache c).preloadAddr.toNat + (s.dev.cache c).preloadSize.toNat - 1 -
            windowBase s.cfg c) / 65536)) ∧
      (∀ n, t.dev.intSt.getLsbD n = (s.dev.intSt.getLsbD n ||
        (!fits && decide (n = (if c = .icache then 4 else 5)))))

/-- INVALIDATE, in every cache state, makes every page that no locked section pins not resident, keeps the pinned ones,
and sets DONE. Nothing else changes (45_lock_preload_autoload R126). -/
def Obligations.InvalidateKeepsPinnedPages : Prop :=
  ∀ (s : State) (c : CacheId) (v : Word), v.getLsbD 0 = true → ∃ t, exec (invalidateRow c v) s = .next t ∧
    t = { s with
      dev := s.dev.setCache c { s.dev.cache c with resident := (t.dev.cache c).resident, invalDone := true }
      answer := .nothing } ∧
    (∀ q, t.dev.residentAt c q = true ↔ s.dev.residentAt c q = true ∧
      ∃ k, ((s.dev.cache c).lock k).ena = true ∧ q ∈ pages s.cfg c ((s.dev.cache c).lock k).range)

/-- A write to an address or size register stores the word and changes nothing else: no operation starts and no captured
range moves (10_state R35). -/
def Obligations.RangeRegistersAreStores : Prop :=
  ∀ (s : State) (c : CacheId) (k : Sec) (v : Word),
    exec (lockAddrRow c k v) s = .next { s with
      dev := s.dev.setCache c ((s.dev.cache c).setLock k { (s.dev.cache c).lock k with addr := v })
      answer := .nothing } ∧
    exec (lockSizeRow c k v) s = .next { s with
      dev := s.dev.setCache c ((s.dev.cache c).setLock k { (s.dev.cache c).lock k with size := v })
      answer := .nothing } ∧
    exec (autoloadAddrRow c k v) s = .next { s with
      dev := s.dev.setCache c ((s.dev.cache c).setAl k { (s.dev.cache c).al k with addr := v })
      answer := .nothing } ∧
    exec (autoloadSizeRow c k v) s = .next { s with
      dev := s.dev.setCache c ((s.dev.cache c).setAl k { (s.dev.cache c).al k with size := v })
      answer := .nothing } ∧
    exec (preloadAddrRow c v) s = .next { s with
      dev := s.dev.setCache c { s.dev.cache c with preloadAddr := v }, answer := .nothing } ∧
    exec (preloadSizeRow c v) s = .next { s with
      dev := s.dev.setCache c { s.dev.cache c with preloadSize := v }, answer := .nothing }

/-- EVICT is enabled exactly for a resident page that no locked section pins, of a cache that is not Frozen; then it
clears that page's residency and nothing else (45_lock_preload_autoload R127). Otherwise there is no step: the model's
refusal (log 8). -/
def Obligations.EvictClearsOneUnpinnedPage : Prop :=
  ∀ (s : State) (c : CacheId) (p : BitVec 9),
    (s.dev.residentAt c p.toNat = true ∧ (s.dev.cache c).cstate ≠ .frozen ∧
        (∀ k, ((s.dev.cache c).lock k).ena = true → p.toNat ∉ pages s.cfg c ((s.dev.cache c).lock k).range) →
      ∃ t, exec (.evict c p) s = .next t ∧
        t = { s with
          dev := s.dev.setCache c { s.dev.cache c with resident := (t.dev.cache c).resident }
          answer := .nothing } ∧
        ∀ q, t.dev.residentAt c q = (s.dev.residentAt c q && decide (q ≠ p.toNat))) ∧
    (s.dev.residentAt c p.toNat = false ∨ (s.dev.cache c).cstate = .frozen ∨
        (∃ k, ((s.dev.cache c).lock k).ena = true ∧ p.toNat ∈ pages s.cfg c ((s.dev.cache c).lock k).range) →
      exec (.evict c p) s = .refused .evictNotEnabled)

/-! ## Counters -/

/-- CNT_CLR clears the three counters of one cache; the status bits and the other cache's counters stay
(46_access_counters R131). -/
def Obligations.CounterClearClearsOneCache : Prop :=
  ∀ (s : State) (c : CacheId) (v : Word), v.getLsbD 0 = true →
    exec (cntClrRow c v) s = .next { s with
      dev := s.dev.setCache c { s.dev.cache c with acsCnt := 0#32, missCnt := 0#32, psramMissCnt := 0#32 }
      answer := .nothing }

/-- The counter reads answer the counters, change nothing, and for ICACHE the PSRAM miss counter reads 0 in every state
that meets the invariant (46_access_counters R132). -/
def Obligations.CounterReadsAnswerTheCounters : Prop :=
  ∀ (s : State) (c : CacheId),
    exec (acsReadRow c) s = .next { s with answer := .word (s.dev.cache c).acsCnt } ∧
    exec (missReadRow c) s = .next { s with answer := .word (s.dev.cache c).missCnt } ∧
    exec (psramMissReadRow c) s = .next { s with answer := .word (s.dev.cache c).psramMissCnt } ∧
    (Inv s → exec .icachePsramMissCntRead s = .next { s with answer := .word 0#32 })

/-- The misses of a cache stay within its accesses over every operation that starts below CNT_MAX accesses
(46_access_counters R133, which the spec derives from R130 and R131). -/
def Obligations.MissesStayWithinAccesses : Prop :=
  ∀ (i : Instr) (s t : State) (c : CacheId), exec i s = .next t →
    countsConsistent (s.dev.cache c) → (s.dev.cache c).acsCnt ≠ 0xFFFFFFFF#32 → countsConsistent (t.dev.cache c)

/-! ## The permission gate -/

/-- A boundary write stores bits [11:0] in one boundary of an unlocked table and is ignored by a locked one
(43_permission_gate R105). -/
def Obligations.PmsBoundaryStoredWhileUnlocked : Prop :=
  ∀ (s : State) (b : Bus) (k : PmsSec) (v : Word),
    ((s.dev.pms b).lock ≠ 0#3 → exec (pmsBoundaryRow b k v) s = .next { s with answer := .nothing }) ∧
    ((s.dev.pms b).lock = 0#3 → exec (pmsBoundaryRow b k v) s = .next { s with
      dev := s.dev.setPms b ((s.dev.pms b).setBound k (v.extractLsb' 0 12)), answer := .nothing })

/-- An attribute write stores bits [7:0] without bits 3 and 7 in one attribute of an unlocked table and is ignored by a
locked one (43_permission_gate R106). -/
def Obligations.PmsAttributeStoredWhileUnlocked : Prop :=
  ∀ (s : State) (b : Bus) (k : PmsSec) (v : Word),
    ((s.dev.pms b).lock ≠ 0#3 → exec (pmsAttrRow b k v) s = .next { s with answer := .nothing }) ∧
    ((s.dev.pms b).lock = 0#3 → exec (pmsAttrRow b k v) s = .next { s with
      dev := s.dev.setPms b ((s.dev.pms b).setAttr k ((v &&& 0x77#32).extractLsb' 0 8)), answer := .nothing })

/-- PMS_LOCK sets the flags written 1 and clears none; nothing else changes (43_permission_gate R107). -/
def Obligations.PmsLockIsSticky : Prop :=
  ∀ (s : State) (b : Bus) (v : Word),
    exec (pmsLockRow b v) s = .next { s with
      dev := s.dev.setPms b { s.dev.pms b with lock := (s.dev.pms b).lock ||| v.extractLsb' 0 3 }
      answer := .nothing }

/-- While any lock flag of a bus is set, no step but RESET changes a boundary or an attribute of its table, and none
clears a set flag (43_permission_gate R107, 10_state R27). -/
def Obligations.LockedPermissionTableIsFrozen : Prop :=
  ∀ (s t : State) (b : Bus), step s = .next t → fetch s ≠ some (.op .reset) → (s.dev.pms b).lock ≠ 0#3 →
    (t.dev.pms b).rules = (s.dev.pms b).rules ∧
    ∀ n, (s.dev.pms b).lock.getLsbD n = true → (t.dev.pms b).lock.getLsbD n = true

/-! ## Interrupts and the fault record -/

/-- INT_CLR clears exactly the status bits written 1; the fault record, the enables and the counters stay
(60_exceptions R145). -/
def Obligations.IntClrClearsWrittenOnes : Prop :=
  ∀ (s : State) (v : Word), ∃ t, exec (.intClr v) s = .next t ∧
    t = { s with dev := { s.dev with intSt := t.dev.intSt }, answer := .nothing } ∧
    ∀ n, t.dev.intSt.getLsbD n = (s.dev.intSt.getLsbD n && !v.getLsbD n)

/-- INT_ENA stores bits [10:0]; enabling a bit whose status is set asserts the line at once, and disabling does not clear
the status (60_exceptions R144, R146). -/
def Obligations.IntEnaDrivesTheLine : Prop :=
  ∀ (s : State) (v : Word), ∃ t, exec (.intEna v) s = .next t ∧
    t = { s with dev := { s.dev with intEna := v.extractLsb' 0 11 }, answer := .nothing } ∧
    (t.dev.intOut = true ↔ ∃ n, s.dev.intSt.getLsbD n = true ∧ v.getLsbD n = true)

/-- The line is the OR of the eleven status bits under their enables (60_exceptions R144). -/
def Obligations.InterruptLineIsTheEnabledStatus : Prop :=
  ∀ s : State, s.dev.intOut = true ↔ ∃ n, n < 11 ∧ s.dev.intSt.getLsbD n = true ∧ s.dev.intEna.getLsbD n = true

/-- INT_ST and INT_ENA read their eleven bits, zero above them, and change nothing (10_state R44, R45). -/
def Obligations.InterruptRegistersReadBack : Prop :=
  ∀ s : State,
    exec .intStRead s = .next { s with answer := .word (s.dev.intSt.zeroExtend 32) } ∧
    exec .intEnaRead s = .next { s with answer := .word (s.dev.intEna.zeroExtend 32) }

/-- FAULT_VADDR and FAULT_INFO read the fault record (code in bits [3:0], content in bits [13:4]), writes to them are
ignored, and an instruction that changes the record is RESET or an access that answers PermissionFault or
TranslationFault (60_exceptions R136). -/
def Obligations.FaultRecordReadsAndStays : Prop :=
  (∀ s : State,
    exec .faultVaddrRead s = .next { s with answer := .word s.dev.faultVaddr } ∧
    ∃ w : Word, exec .faultInfoRead s = .next { s with answer := .word w } ∧
      w.toNat = s.dev.faultCode.toNat + 16 * s.dev.faultContent.toNat) ∧
  (∀ (s : State) (v : Word), exec (.regWrite 0x108#12 v) s = .next { s with answer := .nothing } ∧
    exec (.regWrite 0x10C#12 v) s = .next { s with answer := .nothing }) ∧
  (∀ (i : Instr) (s t : State), exec i s = .next t → t.dev.faultRecord ≠ s.dev.faultRecord →
    i = .reset ∨ t.answer = .permissionFault ∨ t.answer = .translationFault)

/-- A set status bit is cleared only by RESET or by a write of 1 to it (10_state R44). -/
def Obligations.StatusBitsClearOnlyBySoftware : Prop :=
  ∀ (s t : State) (n : Nat), step s = .next t → s.dev.intSt.getLsbD n = true → t.dev.intSt.getLsbD n = false →
    fetch s = some (.op .reset) ∨ ∃ v : Word, fetch s = some (.op (.wr 32 0x100#12 v)) ∧ v.getLsbD n = true

/-! ## Bus accesses -/

/-- The first three checks of a bus access, in order: an illegal length is refused, a range that is not inside the
window answers RangeFault and changes nothing, a page crossing is refused (42_translation R95; 60_exceptions R139,
R142). The window starts at IBUS_BASE for IBUS and at DBUS_BASE for DBUS (00_scope R8). -/
def Obligations.BusAccessRoutingChecks : Prop :=
  ∀ (s : State) (b : Bus) (k : AccessClass) (w : World) (va : Word) (len : Nat) (wdata : List Byte) (n base : Nat),
    n = (if k = .write then wdata.length else len) →
    base = (if b = .ibus then s.cfg.ibusBase else s.cfg.dbusBase).toNat →
    (n = 0 ∨ s.cfg.maxAccessLen < n → exec (busRow b k w va len wdata) s = .refused .accessLength) ∧
    (1 ≤ n → n ≤ s.cfg.maxAccessLen → va.toNat < base ∨ base + 33554432 < va.toNat + n →
      exec (busRow b k w va len wdata) s = .next { s with answer := .rangeFault }) ∧
    (1 ≤ n → n ≤ s.cfg.maxAccessLen → base ≤ va.toNat → va.toNat + n ≤ base + 33554432 →
      65536 < va.toNat % 65536 + n → exec (busRow b k w va len wdata) s = .refused .pageCrossing)

/-- An access the permission gate rejects answers PermissionFault, latches code 2 with the packed content and the
address, sets the bus's PMS status bit, and does nothing else, whatever the MMU table holds
(60_exceptions R138, 30_encoding R71). -/
def Obligations.PermissionFaultIsLatched : Prop :=
  ∀ (s : State) (b : Bus) (k : AccessClass) (w : World) (va : Word) (len : Nat) (wdata : List Byte) (q : Nat),
    routed s.cfg b va (accessLen k len wdata) → q = (va.toNat - windowBase s.cfg b.cache) / 65536 →
    (pmsSection (s.dev.pms b) q = none ∨ ∃ j, pmsSection (s.dev.pms b) q = some j ∧
      (worldAttr ((s.dev.pms b).attr j) w).getLsbD (match k with | .read => 0 | .write => 1 | .fetch => 2) = false) →
    ∃ t, exec (busRow b k w va len wdata) s = .next t ∧
      t = { s with
        dev := { s.dev with
          faultVaddr := va, faultCode := 2#4, faultContent := t.dev.faultContent
          intSt := s.dev.intSt ||| (if b = .ibus then 4#11 else 8#11) }
        answer := .permissionFault } ∧
      t.dev.faultContent.toNat =
        (match w with | .world0 => 0 | .world1 => 1) +
        2 * (match pmsSection (s.dev.pms b) q with
          | none => 0
          | some j => (worldAttr ((s.dev.pms b).attr j) w).toNat) +
        16 * (match k with | .read => 0 | .write => 1 | .fetch => 2) +
        64 * (match pmsSection (s.dev.pms b) q with | some .k0 => 0 | some .k1 => 1 | some .k2 => 2 | none => 3) +
        256 * (if b = .ibus then 0 else 1)

/-- An access the gate allows to a page whose entry is invalid answers TranslationFault, latches code 1 with the page
index and the address, sets the bus's MMU status bit, and does nothing else, even when the bus is shut or the cache
disabled (60_exceptions R137, R142). -/
def Obligations.TranslationFaultIsLatched : Prop :=
  ∀ (s : State) (b : Bus) (k : AccessClass) (w : World) (va : Word) (len : Nat) (wdata : List Byte) (q : Nat),
    routed s.cfg b va (accessLen k len wdata) → q = (va.toNat - windowBase s.cfg b.cache) / 65536 →
    pmsAllows (s.dev.pms b) w k q = true → (s.dev.entry q).invalid = true →
    exec (busRow b k w va len wdata) s = .next { s with
      dev := { s.dev with
        faultVaddr := va, faultCode := 1#4, faultContent := BitVec.ofNat 10 q
        intSt := s.dev.intSt ||| (if b = .ibus then 1#11 else 2#11) }
      answer := .translationFault }

/-- An access the gate and the table let through is turned away by a shut bus, else by a disabled cache, else, for a
write, by a cache frozen in mode 1, and then nothing changes (44_cache_state R114, R116; 42_translation R95). -/
def Obligations.CacheStateTurnsAccessesAway : Prop :=
  ∀ (s : State) (b : Bus) (k : AccessClass) (w : World) (va : Word) (len : Nat) (wdata : List Byte) (q : Nat),
    routed s.cfg b va (accessLen k len wdata) → q = (va.toNat - windowBase s.cfg b.cache) / 65536 →
    pmsAllows (s.dev.pms b) w k q = true → (s.dev.entry q).invalid = false →
    ((s.dev.cache b.cache).shut = true →
      exec (busRow b k w va len wdata) s = .next { s with answer := .shut }) ∧
    ((s.dev.cache b.cache).shut = false → (s.dev.cache b.cache).cstate = .disabled →
      exec (busRow b k w va len wdata) s = .next { s with answer := .cacheDisabled }) ∧
    ((s.dev.cache b.cache).shut = false → (s.dev.cache b.cache).cstate = .frozen → k = .write →
      (s.dev.cache b.cache).freezeMode = true →
      exec (busRow b k w va len wdata) s = .next { s with answer := .frozenWriteRejected })

/-- A read or fetch that every gate lets through answers `len` bytes and changes no store. From an encrypted flash offset
they are the decryption unit's (20_memory R60); else, from a range inside the store, the store's bytes from the translated
offset, in order (R58); else the bytes of the current draw for that range (R59). The unit's and the drawn bytes are free
values (log 7, log 6) (42_translation R95, R97, R99, R100, R102). -/
def Obligations.ReadAnswersTheStoreBytes : Prop :=
  ∀ (s : State) (b : Bus) (k : AccessClass) (w : World) (va : Word) (len : Nat) (q off size : Nat) (st : StoreId)
    (encrypted : Prop),
    k = .read ∨ k = .fetch →
    routed s.cfg b va len → q = (va.toNat - windowBase s.cfg b.cache) / 65536 →
    pmsAllows (s.dev.pms b) w k q = true → translate s.cfg b.cache va s.dev = .at st off →
    (s.dev.cache b.cache).shut = false → (s.dev.cache b.cache).cstate ≠ .disabled →
    (encrypted ↔ st = .flash ∧ ∃ r ∈ s.cfg.flashCrypt, r.1 ≤ off ∧ off < r.1 + r.2) →
    size = (if st = .flash then s.cfg.flashSize else s.cfg.psramSize) →
    ∃ t data, exec (busRow b k w va len []) s = .next t ∧ t.answer = .ok data ∧ data.length = len ∧
      t.flash = s.flash ∧ t.psram = s.psram ∧ t.cfg = s.cfg ∧ t.program = s.program ∧ t.position = s.position ∧
      t.draws = s.draws ∧
      (encrypted → ∀ j, j < len → data.getD j 0#8 = Config.decryptByte s.flash off len j) ∧
      (¬ encrypted → off + len ≤ size →
        ∀ j, j < len → data.getD j 0#8 = s.byteAt st (off + j)) ∧
      (¬ encrypted → size < off + len →
        ∀ j, j < len → data.getD j 0#8 = Config.drawnByte s.draws st off len j)

/-- A write that every gate lets through answers Ok; in Enabled, where the range lies in the store, it stores its bytes
from the translated offset upward and no other byte; a frozen cache with mode 0, and a range outside the store, leave
every byte (42_translation R95, R98, R101; 20_memory R58, R59). -/
def Obligations.WriteStoresItsBytes : Prop :=
  ∀ (s : State) (b : Bus) (w : World) (va : Word) (wdata : List Byte) (q off : Nat) (st : StoreId),
    routed s.cfg b va wdata.length → q = (va.toNat - windowBase s.cfg b.cache) / 65536 →
    pmsAllows (s.dev.pms b) w .write q = true → translate s.cfg b.cache va s.dev = .at st off →
    (s.dev.cache b.cache).shut = false →
    (s.dev.cache b.cache).cstate = .enabled ∨
      ((s.dev.cache b.cache).cstate = .frozen ∧ (s.dev.cache b.cache).freezeMode = false) →
    Memory.wf (s.store st) = true →
    ∃ t, exec (busRow b .write w va 0 wdata) s = .next t ∧ t.answer = .ok [] ∧
      t.cfg = s.cfg ∧ t.program = s.program ∧ t.position = s.position ∧ t.draws = s.draws ∧
      ∀ st' x, t.byteAt st' x =
        if (s.dev.cache b.cache).cstate = .enabled ∧ off + wdata.length ≤ storeSize s.cfg st ∧
            st' = st ∧ off ≤ x ∧ x < off + wdata.length
        then wdata.getD (x - off) 0#8 else s.byteAt st' x

/-- What a completed access counts: one access of its cache, and on a miss one miss, on DBUS in the counter of the store
that backs the page; a counter at CNT_MAX holds and sets its status bit; no other counter and no other status bit
changes (46_access_counters R129, R130; 60_exceptions R141). -/
def Obligations.CompletedAccessCounts : Prop :=
  ∀ (s t : State) (b : Bus) (k : AccessClass) (w : World) (va : Word) (len : Nat) (wdata data : List Byte)
    (st : StoreId) (off : Nat) (hit : Bool) (q : Nat),
    exec (busRow b k w va len wdata) s = .next t → t.answer = .ok data →
    q = (va.toNat - windowBase s.cfg b.cache) / 65536 → translate s.cfg b.cache va s.dev = .at st off →
    hit = s.dev.residentAt b.cache q →
    (∀ c, (t.dev.cache c).acsCnt.toNat =
      if c = b.cache then min (2 ^ 32 - 1) ((s.dev.cache c).acsCnt.toNat + 1) else (s.dev.cache c).acsCnt.toNat) ∧
    (∀ c, (t.dev.cache c).missCnt.toNat =
      if c = b.cache ∧ hit = false ∧ (c = .icache ∨ st = .flash)
      then min (2 ^ 32 - 1) ((s.dev.cache c).missCnt.toNat + 1) else (s.dev.cache c).missCnt.toNat) ∧
    (∀ c, (t.dev.cache c).psramMissCnt.toNat =
      if c = b.cache ∧ hit = false ∧ c = .dcache ∧ st = .psram
      then min (2 ^ 32 - 1) ((s.dev.cache c).psramMissCnt.toNat + 1) else (s.dev.cache c).psramMissCnt.toNat) ∧
    (∀ n, t.dev.intSt.getLsbD n = true ↔ s.dev.intSt.getLsbD n = true ∨
      ((s.dev.cache b.cache).acsCnt = 0xFFFFFFFF#32 ∧ n = (if b = .ibus then 6 else 8)) ∨
      (hit = false ∧ b = .ibus ∧ s.dev.icache.missCnt = 0xFFFFFFFF#32 ∧ n = 7) ∨
      (hit = false ∧ b = .dbus ∧ st = .flash ∧ s.dev.dcache.missCnt = 0xFFFFFFFF#32 ∧ n = 9) ∨
      (hit = false ∧ b = .dbus ∧ st = .psram ∧ s.dev.dcache.psramMissCnt = 0xFFFFFFFF#32 ∧ n = 10))

/-- What a completed access makes resident, in Enabled only: its own page on a miss, and the whole captured range of
every armed autoload section that holds the address and whose trigger matches; it makes no page leave, and changes
nothing else of the device but the counters and the status (42_translation R96; 45_lock_preload_autoload R125;
10_state R37). -/
def Obligations.CompletedAccessFillsAndAutoloads : Prop :=
  ∀ (s t : State) (b : Bus) (k : AccessClass) (w : World) (va : Word) (len : Nat) (wdata data : List Byte)
    (hit : Bool) (q : Nat),
    exec (busRow b k w va len wdata) s = .next t → t.answer = .ok data →
    q = (va.toNat - windowBase s.cfg b.cache) / 65536 → hit = s.dev.residentAt b.cache q →
    t.dev = { s.dev.setCache b.cache { s.dev.cache b.cache with
        resident := (t.dev.cache b.cache).resident, acsCnt := (t.dev.cache b.cache).acsCnt
        missCnt := (t.dev.cache b.cache).missCnt, psramMissCnt := (t.dev.cache b.cache).psramMissCnt } with
      intSt := t.dev.intSt } ∧
    ∀ q', t.dev.residentAt b.cache q' = true ↔ s.dev.residentAt b.cache q' = true ∨
      ((s.dev.cache b.cache).cstate = .enabled ∧ q' < 512 ∧
        ((hit = false ∧ q' = q) ∨
          ∃ j, ((s.dev.cache b.cache).al j).ena = true ∧
            ((s.dev.cache b.cache).al j).range.start.toNat ≤ va.toNat ∧
            va.toNat < ((s.dev.cache b.cache).al j).range.start.toNat +
              ((s.dev.cache b.cache).al j).range.size.toNat ∧
            ((((s.dev.cache b.cache).al j).trig = 0#2 ∧ hit = false) ∨
              (((s.dev.cache b.cache).al j).trig = 1#2 ∧ hit = true) ∨
              ((s.dev.cache b.cache).al j).trig = 2#2 ∨
              (((s.dev.cache b.cache).al j).trig = 3#2 ∧ hit = false)) ∧
            q' ∈ pages s.cfg b.cache ((s.dev.cache b.cache).al j).range))

/-- A rejected access, every answer but Ok, reaches no store and changes no counter, no residency and no other state but
the fault record and the status (42_translation R95). -/
def Obligations.RejectedAccessTouchesNothing : Prop :=
  ∀ (s t : State) (b : Bus) (k : AccessClass) (w : World) (va : Word) (len : Nat) (wdata : List Byte),
    exec (busRow b k w va len wdata) s = .next t → (∀ data, t.answer ≠ .ok data) →
    t = { s with
      dev := { s.dev with
        faultVaddr := t.dev.faultVaddr, faultCode := t.dev.faultCode, faultContent := t.dev.faultContent
        intSt := t.dev.intSt }
      answer := t.answer }

/-- Whether the gate rejects an access does not depend on the MMU table: two states that differ only in it give the same
answer and the same fault record and status to an access that one of them rejects (43_permission_gate R104). -/
def Obligations.PermissionOutcomeIgnoresTheMmuTable : Prop :=
  ∀ (s t : State) (m : Vector MmuEntry 512) (b : Bus) (k : AccessClass) (w : World) (va : Word) (len : Nat)
    (wdata : List Byte),
    exec (busRow b k w va len wdata) s = .next t → t.answer = .permissionFault →
    exec (busRow b k w va len wdata) { s with dev := { s.dev with mmu := m } } =
      .next { t with dev := { t.dev with mmu := m } }

/-- For every valid entry i and every k below 65536, without wrapping, address k of page i translates to
`page_number * 65536 + k` of the page's store; for every invalid entry it gives TranslationFault and no offset
(42_translation R94, which the spec derives from R91). The window of ICACHE starts at IBUS_BASE, that of DCACHE at
DBUS_BASE (00_scope R8), and STORE_MAP's bit i says whether PSRAM backs page i (R92; the form is log 14). -/
def Obligations.ValidEntryTranslatesByPageNumber : Prop :=
  ∀ (s : State) (c : CacheId) (i k : Nat) (va : Word) (st : StoreId), s.cfg.valid = true → i < 512 → k < 65536 →
    va.toNat = (if c = .icache then s.cfg.ibusBase else s.cfg.dbusBase).toNat + i * 65536 + k →
    (st = .psram ↔ (if c = .icache then s.cfg.ipsramPages else s.cfg.dpsramPages).getLsbD i = true) →
    ((s.dev.entry i).invalid = false → st = .psram ∨ (s.dev.cache c).wrap = false →
      translate s.cfg c va s.dev = .at st ((s.dev.entry i).page.toNat * 65536 + k)) ∧
    ((s.dev.entry i).invalid = true → translate s.cfg c va s.dev = .translationFault)

/-- With the wrap flag set, a flash-backed offset is reduced modulo the flash size and a PSRAM-backed one is not
(42_translation R93). -/
def Obligations.WrapReducesFlashOffsetsOnly : Prop :=
  ∀ (s : State) (c : CacheId) (i k : Nat) (va : Word), s.cfg.valid = true → i < 512 → k < 65536 →
    va.toNat = (if c = .icache then s.cfg.ibusBase else s.cfg.dbusBase).toNat + i * 65536 + k →
    (s.dev.entry i).invalid = false → (s.dev.cache c).wrap = true →
    ((if c = .icache then s.cfg.ipsramPages else s.cfg.dpsramPages).getLsbD i = false →
      translate s.cfg c va s.dev =
        .at .flash (((s.dev.entry i).page.toNat * 65536 + k) % s.cfg.flashSize)) ∧
    ((if c = .icache then s.cfg.ipsramPages else s.cfg.dpsramPages).getLsbD i = true →
      translate s.cfg c va s.dev = .at .psram ((s.dev.entry i).page.toNat * 65536 + k))

/-- A completed write of an enabled cache inside its store is seen by the next read or fetch of the same store offsets on
either bus, with no invalidate between them (20_memory R64). -/
def Obligations.WriteIsSeenByEitherBus : Prop :=
  ∀ (s t : State) (b b' : Bus) (k : AccessClass) (w w' : World) (va va' : Word) (wdata data : List Byte) (off : Nat)
    (st : StoreId),
    exec (busRow b .write w va 0 wdata) s = .next t → t.answer = .ok data →
    (s.dev.cache b.cache).cstate = .enabled → Memory.wf (s.store st) = true →
    translate s.cfg b.cache va s.dev = .at st off → off + wdata.length ≤ storeSize s.cfg st →
    k = .read ∨ k = .fetch → routed s.cfg b' va' wdata.length →
    pmsAllows (s.dev.pms b') w' k ((va'.toNat - windowBase s.cfg b'.cache) / 65536) = true →
    translate s.cfg b'.cache va' s.dev = .at st off →
    (s.dev.cache b'.cache).shut = false → (s.dev.cache b'.cache).cstate ≠ .disabled →
    flashCrypted s.cfg off = false ∨ st = .psram →
    ∃ u, exec (busRow b' k w' va' wdata.length []) t = .next u ∧ u.answer = .ok wdata

/-! ## Whole-machine rules -/

/-- Every step keeps the invariant. -/
def Obligations.StepKeepsTheInvariant : Prop :=
  ∀ s t : State, Inv s → step s = .next t → Inv t

/-- While a section is locked, no operation but RESET makes a page of its captured range leave the cache
(45_lock_preload_autoload R128, which the spec derives from R119, R126 and R127). -/
def Obligations.LockedPagesStayResident : Prop :=
  ∀ (i : Instr) (s t : State) (c : CacheId) (k : Sec) (q : Nat), exec i s = .next t → i ≠ .reset →
    ((s.dev.cache c).lock k).ena = true → q ∈ pages s.cfg c ((s.dev.cache c).lock k).range →
    s.dev.residentAt c q = true → t.dev.residentAt c q = true

/-- A byte of a store changes only in a step that is the environment's own write or a bus write that answers Ok
(00_scope R5, 20_memory R58, 42_translation R95). -/
def Obligations.StoresChangeOnlyByWrites : Prop :=
  ∀ (s t : State) (st : StoreId) (x : Nat), step s = .next t → t.byteAt st x ≠ s.byteAt st x →
    (∃ st' off bytes, fetch s = some (.storeWrite st' off bytes)) ∨
    (∃ (a : BitVec 4) (va : Word) (len : Nat) (wdata : List Byte), fetch s = some (.op (.bus a va len wdata)) ∧
      a.getLsbD 1 = false ∧ a.getLsbD 0 = true ∧ t.answer = .ok [])

/-! ## Sections, attributes and ranges

What the statements above mean by the section of a page, the attribute of a world and the pages of a range. -/

/-- The section that holds a page is named by the first boundary above it: section 0 below B0, else 1 below B1, else 2 below
B2, else none; where the boundaries are strictly increasing the sections are [0, B0), [B0, B1), [B1, B2)
(43_permission_gate R103). -/
def Obligations.PageSectionFollowsTheBoundaries : Prop :=
  ∀ (t : PmsTable) (q : Nat),
    (q < t.bound0.toNat → pmsSection t q = some .k0) ∧
    (t.bound0.toNat ≤ q → q < t.bound1.toNat → pmsSection t q = some .k1) ∧
    (t.bound0.toNat ≤ q → t.bound1.toNat ≤ q → q < t.bound2.toNat → pmsSection t q = some .k2) ∧
    (t.bound0.toNat ≤ q → t.bound1.toNat ≤ q → t.bound2.toNat ≤ q → pmsSection t q = none) ∧
    (t.bound0.toNat < t.bound1.toNat → t.bound1.toNat < t.bound2.toNat →
      (pmsSection t q = some .k0 ↔ q < t.bound0.toNat) ∧
      (pmsSection t q = some .k1 ↔ t.bound0.toNat ≤ q ∧ q < t.bound1.toNat) ∧
      (pmsSection t q = some .k2 ↔ t.bound1.toNat ≤ q ∧ q < t.bound2.toNat) ∧
      (pmsSection t q = none ↔ t.bound2.toNat ≤ q))

/-- World 0's attribute is bits [2:0] of a section's attribute byte and world 1's is bits [6:4]; in each, bit 0 permits
reads, bit 1 writes, bit 2 fetches; the gate allows an access exactly where some section holds its page and permits its
class to its world (30_encoding R72, 43_permission_gate R104). -/
def Obligations.AttributeBitsPermitTheClass : Prop :=
  (∀ (a : BitVec 8) (n : Nat),
    (worldAttr a .world0).getLsbD n = (decide (n < 3) && a.getLsbD n) ∧
    (worldAttr a .world1).getLsbD n = (decide (n < 3) && a.getLsbD (n + 4))) ∧
  (∀ (t : PmsTable) (w : World) (k : AccessClass) (q : Nat), pmsAllows t w k q = true ↔
    ∃ j, pmsSection t q = some j ∧
      (match j with | .k0 => t.attr0 | .k1 => t.attr1 | .k2 => t.attr2).getLsbD
        ((if w = World.world0 then 0 else 4) + (match k with | .read => 0 | .write => 1 | .fetch => 2)) = true)

/-- The pages of a range inside the window are those between the first and the last byte's, none where the size is 0: every
page that some byte of the range lies in (45_lock_preload_autoload R118). -/
def Obligations.RangePagesAreTheTouchedOnes : Prop :=
  ∀ (p : Params) (c : CacheId) (r : Range) (q base : Nat),
    base = (if c = .icache then p.ibusBase else p.dbusBase).toNat →
    base ≤ r.start.toNat → r.start.toNat + r.size.toNat ≤ base + 33554432 →
    (q ∈ pages p c r ↔ r.size ≠ 0#32 ∧ (r.start.toNat - base) / 65536 ≤ q ∧
      q ≤ (r.start.toNat + r.size.toNat - 1 - base) / 65536) ∧
    (q ∈ pages p c r ↔
      ∃ x, r.start.toNat ≤ x ∧ x < r.start.toNat + r.size.toNat ∧ q = (x - base) / 65536)

/-! ## Repeated reads -/

/-- Two identical bus reads with no operation between them give the same answer, also from an encrypted offset and from a
range outside the store, and change no store; each may count (20_memory R57). -/
def Obligations.IdenticalReadsAnswerTheSame : Prop :=
  ∀ (s t u : State) (a : BitVec 4) (va : Word) (len : Nat),
    fetch s = some (.op (.bus a va len [])) → fetch t = some (.op (.bus a va len [])) →
    step s = .next t → step t = .next u →
    u.answer = t.answer ∧ u.flash = s.flash ∧ u.psram = s.psram
end

