-- ==== Sys2Proof/Laws/State.lean ====
section
/-! SUPPORT. Laws/State.lean: one lemma for each field of each update of the state, so that later proofs need not unfold
an update. -/

namespace Sys2Proof.Machine

/-! ## `State.commit` -/

@[simp] theorem State.commit_dev (s : State) (d : Device) (a : Answer) :
    (s.commit d a).dev = d := rfl

@[simp] theorem State.commit_flash (s : State) (d : Device) (a : Answer) :
    (s.commit d a).flash = s.flash := rfl

@[simp] theorem State.commit_psram (s : State) (d : Device) (a : Answer) :
    (s.commit d a).psram = s.psram := rfl

@[simp] theorem State.commit_cfg (s : State) (d : Device) (a : Answer) :
    (s.commit d a).cfg = s.cfg := rfl

@[simp] theorem State.commit_draws (s : State) (d : Device) (a : Answer) :
    (s.commit d a).draws = s.draws := rfl

@[simp] theorem State.commit_program (s : State) (d : Device) (a : Answer) :
    (s.commit d a).program = s.program := rfl

@[simp] theorem State.commit_position (s : State) (d : Device) (a : Answer) :
    (s.commit d a).position = s.position := rfl

@[simp] theorem State.commit_answer (s : State) (d : Device) (a : Answer) :
    (s.commit d a).answer = a := rfl

/-! ## `advance` -/

@[simp] theorem advance_dev (s : State) :
    (advance s).dev = s.dev := rfl

@[simp] theorem advance_flash (s : State) :
    (advance s).flash = s.flash := rfl

@[simp] theorem advance_psram (s : State) :
    (advance s).psram = s.psram := rfl

@[simp] theorem advance_cfg (s : State) :
    (advance s).cfg = s.cfg := rfl

@[simp] theorem advance_draws (s : State) :
    (advance s).draws = nextDraw s := rfl

@[simp] theorem advance_program (s : State) :
    (advance s).program = s.program := rfl

@[simp] theorem advance_position (s : State) :
    (advance s).position = s.position + 1 := rfl

@[simp] theorem advance_answer (s : State) :
    (advance s).answer = s.answer := rfl

/-- Before an equal event the draw stays (20_memory R57). -/
theorem nextDraw_same {s : State} (h : s.program[s.position + 1]? = s.program[s.position]?) : nextDraw s = s.draws :=
  if_pos h

/-- Before any other event the draw is a fresh one (20_memory R59). -/
theorem nextDraw_fresh {s : State} (h : s.program[s.position + 1]? ≠ s.program[s.position]?) :
    nextDraw s = s.draws + 1 :=
  if_neg h

/-! ## `State.setStore` -/

@[simp] theorem State.setStore_dev (s : State) (st : StoreId) (m : List Host.Cell) :
    (s.setStore st m).dev = s.dev := by cases st <;> rfl

@[simp] theorem State.setStore_cfg (s : State) (st : StoreId) (m : List Host.Cell) :
    (s.setStore st m).cfg = s.cfg := by cases st <;> rfl

@[simp] theorem State.setStore_draws (s : State) (st : StoreId) (m : List Host.Cell) :
    (s.setStore st m).draws = s.draws := by cases st <;> rfl

@[simp] theorem State.setStore_program (s : State) (st : StoreId) (m : List Host.Cell) :
    (s.setStore st m).program = s.program := by cases st <;> rfl

@[simp] theorem State.setStore_position (s : State) (st : StoreId) (m : List Host.Cell) :
    (s.setStore st m).position = s.position := by cases st <;> rfl

@[simp] theorem State.setStore_answer (s : State) (st : StoreId) (m : List Host.Cell) :
    (s.setStore st m).answer = s.answer := by cases st <;> rfl

theorem State.store_setStore (s : State) (st st' : StoreId) (m : List Host.Cell) :
    (s.setStore st m).store st' = if st' = st then m else s.store st' := by
  cases st <;> cases st' <;> rfl

@[simp] theorem State.store_setStore_same (s : State) (st : StoreId) (m : List Host.Cell) :
    (s.setStore st m).store st = m := by cases st <;> rfl

@[simp] theorem State.store_commit (s : State) (d : Device) (a : Answer) (st : StoreId) :
    (s.commit d a).store st = s.store st := by cases st <;> rfl

@[simp] theorem State.byteAt_commit (s : State) (d : Device) (a : Answer) (st : StoreId) (off : Nat) :
    (s.commit d a).byteAt st off = s.byteAt st off := by simp [State.byteAt]

/-! ## `Device.setCache` -/

@[simp] theorem Device.setCache_mmu (d : Device) (c : CacheId) (x : CacheState) :
    (d.setCache c x).mmu = d.mmu := by cases c <;> rfl

@[simp] theorem Device.setCache_ipms (d : Device) (c : CacheId) (x : CacheState) :
    (d.setCache c x).ipms = d.ipms := by cases c <;> rfl

@[simp] theorem Device.setCache_dpms (d : Device) (c : CacheId) (x : CacheState) :
    (d.setCache c x).dpms = d.dpms := by cases c <;> rfl

@[simp] theorem Device.setCache_faultVaddr (d : Device) (c : CacheId) (x : CacheState) :
    (d.setCache c x).faultVaddr = d.faultVaddr := by cases c <;> rfl

@[simp] theorem Device.setCache_faultCode (d : Device) (c : CacheId) (x : CacheState) :
    (d.setCache c x).faultCode = d.faultCode := by cases c <;> rfl

@[simp] theorem Device.setCache_faultContent (d : Device) (c : CacheId) (x : CacheState) :
    (d.setCache c x).faultContent = d.faultContent := by cases c <;> rfl

@[simp] theorem Device.setCache_intSt (d : Device) (c : CacheId) (x : CacheState) :
    (d.setCache c x).intSt = d.intSt := by cases c <;> rfl

@[simp] theorem Device.setCache_intEna (d : Device) (c : CacheId) (x : CacheState) :
    (d.setCache c x).intEna = d.intEna := by cases c <;> rfl

@[simp] theorem Device.setCache_pms (d : Device) (c : CacheId) (x : CacheState) (b : Bus) :
    (d.setCache c x).pms b = d.pms b := by cases c <;> cases b <;> rfl

@[simp] theorem Device.setCache_entry (d : Device) (c : CacheId) (x : CacheState) (i : Nat) :
    (d.setCache c x).entry i = d.entry i := by cases c <;> rfl

theorem Device.cache_setCache (d : Device) (c c' : CacheId) (x : CacheState) :
    (d.setCache c x).cache c' = if c' = c then x else d.cache c' := by
  cases c <;> cases c' <;> rfl

@[simp] theorem Device.cache_setCache_same (d : Device) (c : CacheId) (x : CacheState) :
    (d.setCache c x).cache c = x := by cases c <;> rfl

@[simp] theorem Device.setCache_setCache (d : Device) (c : CacheId) (x y : CacheState) :
    (d.setCache c x).setCache c y = d.setCache c y := by cases c <;> rfl

@[simp] theorem Device.setCache_cache (d : Device) (c : CacheId) : d.setCache c (d.cache c) = d := by
  cases c <;> rfl

/-! ## `Device.setPms` -/

@[simp] theorem Device.setPms_mmu (d : Device) (b : Bus) (x : PmsTable) :
    (d.setPms b x).mmu = d.mmu := by cases b <;> rfl

@[simp] theorem Device.setPms_icache (d : Device) (b : Bus) (x : PmsTable) :
    (d.setPms b x).icache = d.icache := by cases b <;> rfl

@[simp] theorem Device.setPms_dcache (d : Device) (b : Bus) (x : PmsTable) :
    (d.setPms b x).dcache = d.dcache := by cases b <;> rfl

@[simp] theorem Device.setPms_faultVaddr (d : Device) (b : Bus) (x : PmsTable) :
    (d.setPms b x).faultVaddr = d.faultVaddr := by cases b <;> rfl

@[simp] theorem Device.setPms_faultCode (d : Device) (b : Bus) (x : PmsTable) :
    (d.setPms b x).faultCode = d.faultCode := by cases b <;> rfl

@[simp] theorem Device.setPms_faultContent (d : Device) (b : Bus) (x : PmsTable) :
    (d.setPms b x).faultContent = d.faultContent := by cases b <;> rfl

@[simp] theorem Device.setPms_intSt (d : Device) (b : Bus) (x : PmsTable) :
    (d.setPms b x).intSt = d.intSt := by cases b <;> rfl

@[simp] theorem Device.setPms_intEna (d : Device) (b : Bus) (x : PmsTable) :
    (d.setPms b x).intEna = d.intEna := by cases b <;> rfl

@[simp] theorem Device.setPms_cache (d : Device) (b : Bus) (x : PmsTable) (c : CacheId) :
    (d.setPms b x).cache c = d.cache c := by cases b <;> cases c <;> rfl

theorem Device.pms_setPms (d : Device) (b b' : Bus) (x : PmsTable) :
    (d.setPms b x).pms b' = if b' = b then x else d.pms b' := by
  cases b <;> cases b' <;> rfl

@[simp] theorem Device.pms_setPms_same (d : Device) (b : Bus) (x : PmsTable) :
    (d.setPms b x).pms b = x := by cases b <;> rfl

/-! ## `Device.setEntry` -/

@[simp] theorem Device.setEntry_icache (d : Device) (i : Nat) (e : MmuEntry) :
    (d.setEntry i e).icache = d.icache := rfl

@[simp] theorem Device.setEntry_dcache (d : Device) (i : Nat) (e : MmuEntry) :
    (d.setEntry i e).dcache = d.dcache := rfl

@[simp] theorem Device.setEntry_ipms (d : Device) (i : Nat) (e : MmuEntry) :
    (d.setEntry i e).ipms = d.ipms := rfl

@[simp] theorem Device.setEntry_dpms (d : Device) (i : Nat) (e : MmuEntry) :
    (d.setEntry i e).dpms = d.dpms := rfl

@[simp] theorem Device.setEntry_faultVaddr (d : Device) (i : Nat) (e : MmuEntry) :
    (d.setEntry i e).faultVaddr = d.faultVaddr := rfl

@[simp] theorem Device.setEntry_faultCode (d : Device) (i : Nat) (e : MmuEntry) :
    (d.setEntry i e).faultCode = d.faultCode := rfl

@[simp] theorem Device.setEntry_faultContent (d : Device) (i : Nat) (e : MmuEntry) :
    (d.setEntry i e).faultContent = d.faultContent := rfl

@[simp] theorem Device.setEntry_intSt (d : Device) (i : Nat) (e : MmuEntry) :
    (d.setEntry i e).intSt = d.intSt := rfl

@[simp] theorem Device.setEntry_intEna (d : Device) (i : Nat) (e : MmuEntry) :
    (d.setEntry i e).intEna = d.intEna := rfl

@[simp] theorem Device.setEntry_cache (d : Device) (i : Nat) (e : MmuEntry) (c : CacheId) :
    (d.setEntry i e).cache c = d.cache c := by cases c <;> rfl

@[simp] theorem Device.setEntry_pms (d : Device) (i : Nat) (e : MmuEntry) (b : Bus) :
    (d.setEntry i e).pms b = d.pms b := by cases b <;> rfl

theorem Device.entry_setEntry (d : Device) (i j : Nat) (e : MmuEntry) (h : i < nEntries) :
    (d.setEntry i e).entry j = if i = j then e else d.entry j := by
  unfold Device.entry Device.setEntry
  by_cases hij : i = j
  · subst hij
    simp [h]
  · simp [hij]

/-! ## `setStatus`, `latch`, `clearStatus` -/

@[simp] theorem setStatus_mmu (n : Nat) (d : Device) :
    (setStatus n d).mmu = d.mmu := rfl

@[simp] theorem setStatus_icache (n : Nat) (d : Device) :
    (setStatus n d).icache = d.icache := rfl

@[simp] theorem setStatus_dcache (n : Nat) (d : Device) :
    (setStatus n d).dcache = d.dcache := rfl

@[simp] theorem setStatus_ipms (n : Nat) (d : Device) :
    (setStatus n d).ipms = d.ipms := rfl

@[simp] theorem setStatus_dpms (n : Nat) (d : Device) :
    (setStatus n d).dpms = d.dpms := rfl

@[simp] theorem setStatus_faultVaddr (n : Nat) (d : Device) :
    (setStatus n d).faultVaddr = d.faultVaddr := rfl

@[simp] theorem setStatus_faultCode (n : Nat) (d : Device) :
    (setStatus n d).faultCode = d.faultCode := rfl

@[simp] theorem setStatus_faultContent (n : Nat) (d : Device) :
    (setStatus n d).faultContent = d.faultContent := rfl

@[simp] theorem setStatus_intEna (n : Nat) (d : Device) :
    (setStatus n d).intEna = d.intEna := rfl

@[simp] theorem setStatus_intSt (n : Nat) (d : Device) :
    (setStatus n d).intSt = d.intSt ||| (1#11 <<< n) := rfl

@[simp] theorem setStatus_cache (n : Nat) (d : Device) (c : CacheId) :
    (setStatus n d).cache c = d.cache c := by cases c <;> rfl

@[simp] theorem setStatus_pms (n : Nat) (d : Device) (b : Bus) :
    (setStatus n d).pms b = d.pms b := by cases b <;> rfl

@[simp] theorem latch_mmu (code : BitVec 4) (content : BitVec 10) (va : Word) (n : Nat) (d : Device) :
    (latch code content va n d).mmu = d.mmu := rfl

@[simp] theorem latch_icache (code : BitVec 4) (content : BitVec 10) (va : Word) (n : Nat) (d : Device) :
    (latch code content va n d).icache = d.icache := rfl

@[simp] theorem latch_dcache (code : BitVec 4) (content : BitVec 10) (va : Word) (n : Nat) (d : Device) :
    (latch code content va n d).dcache = d.dcache := rfl

@[simp] theorem latch_ipms (code : BitVec 4) (content : BitVec 10) (va : Word) (n : Nat) (d : Device) :
    (latch code content va n d).ipms = d.ipms := rfl

@[simp] theorem latch_dpms (code : BitVec 4) (content : BitVec 10) (va : Word) (n : Nat) (d : Device) :
    (latch code content va n d).dpms = d.dpms := rfl

@[simp] theorem latch_faultVaddr (code : BitVec 4) (content : BitVec 10) (va : Word) (n : Nat) (d : Device) :
    (latch code content va n d).faultVaddr = va := rfl

@[simp] theorem latch_faultCode (code : BitVec 4) (content : BitVec 10) (va : Word) (n : Nat) (d : Device) :
    (latch code content va n d).faultCode = code := rfl

@[simp] theorem latch_faultContent (code : BitVec 4) (content : BitVec 10) (va : Word) (n : Nat) (d : Device) :
    (latch code content va n d).faultContent = content := rfl

@[simp] theorem latch_intSt (code : BitVec 4) (content : BitVec 10) (va : Word) (n : Nat) (d : Device) :
    (latch code content va n d).intSt = d.intSt ||| (1#11 <<< n) := rfl

@[simp] theorem latch_intEna (code : BitVec 4) (content : BitVec 10) (va : Word) (n : Nat) (d : Device) :
    (latch code content va n d).intEna = d.intEna := rfl

@[simp] theorem latch_cache (code : BitVec 4) (content : BitVec 10) (va : Word) (n : Nat) (d : Device) (c : CacheId) :
    (latch code content va n d).cache c = d.cache c := by cases c <;> rfl

@[simp] theorem latch_pms (code : BitVec 4) (content : BitVec 10) (va : Word) (n : Nat) (d : Device) (b : Bus) :
    (latch code content va n d).pms b = d.pms b := by cases b <;> rfl

@[simp] theorem clearStatus_mmu (v : Word) (d : Device) :
    (clearStatus v d).mmu = d.mmu := rfl

@[simp] theorem clearStatus_icache (v : Word) (d : Device) :
    (clearStatus v d).icache = d.icache := rfl

@[simp] theorem clearStatus_dcache (v : Word) (d : Device) :
    (clearStatus v d).dcache = d.dcache := rfl

@[simp] theorem clearStatus_ipms (v : Word) (d : Device) :
    (clearStatus v d).ipms = d.ipms := rfl

@[simp] theorem clearStatus_dpms (v : Word) (d : Device) :
    (clearStatus v d).dpms = d.dpms := rfl

@[simp] theorem clearStatus_faultVaddr (v : Word) (d : Device) :
    (clearStatus v d).faultVaddr = d.faultVaddr := rfl

@[simp] theorem clearStatus_faultCode (v : Word) (d : Device) :
    (clearStatus v d).faultCode = d.faultCode := rfl

@[simp] theorem clearStatus_faultContent (v : Word) (d : Device) :
    (clearStatus v d).faultContent = d.faultContent := rfl

@[simp] theorem clearStatus_intSt (v : Word) (d : Device) :
    (clearStatus v d).intSt = d.intSt &&& ~~~(v.extractLsb' 0 11) := rfl

@[simp] theorem clearStatus_intEna (v : Word) (d : Device) :
    (clearStatus v d).intEna = d.intEna := rfl

@[simp] theorem clearStatus_cache (v : Word) (d : Device) (c : CacheId) :
    (clearStatus v d).cache c = d.cache c := by cases c <;> rfl

@[simp] theorem clearStatus_pms (v : Word) (d : Device) (b : Bus) :
    (clearStatus v d).pms b = d.pms b := by cases b <;> rfl

@[simp] theorem writeIntEna_cache (v : Word) (d : Device) (c : CacheId) :
    (writeIntEna v d).cache c = d.cache c := by cases c <;> rfl

@[simp] theorem writeIntEna_pms (v : Word) (d : Device) (b : Bus) :
    (writeIntEna v d).pms b = d.pms b := by cases b <;> rfl

/-! ## Sections of a cache and of a permission table -/

@[simp] theorem CacheState.setLock_cstate (x : CacheState) (s : Sec) (l : LockSection) :
    (x.setLock s l).cstate = x.cstate := by cases s <;> rfl

@[simp] theorem CacheState.setLock_shut (x : CacheState) (s : Sec) (l : LockSection) :
    (x.setLock s l).shut = x.shut := by cases s <;> rfl

@[simp] theorem CacheState.setLock_wrap (x : CacheState) (s : Sec) (l : LockSection) :
    (x.setLock s l).wrap = x.wrap := by cases s <;> rfl

@[simp] theorem CacheState.setLock_freezeMode (x : CacheState) (s : Sec) (l : LockSection) :
    (x.setLock s l).freezeMode = x.freezeMode := by cases s <;> rfl

@[simp] theorem CacheState.setLock_preloadAddr (x : CacheState) (s : Sec) (l : LockSection) :
    (x.setLock s l).preloadAddr = x.preloadAddr := by cases s <;> rfl

@[simp] theorem CacheState.setLock_preloadSize (x : CacheState) (s : Sec) (l : LockSection) :
    (x.setLock s l).preloadSize = x.preloadSize := by cases s <;> rfl

@[simp] theorem CacheState.setLock_preloadOrder (x : CacheState) (s : Sec) (l : LockSection) :
    (x.setLock s l).preloadOrder = x.preloadOrder := by cases s <;> rfl

@[simp] theorem CacheState.setLock_preloadDone (x : CacheState) (s : Sec) (l : LockSection) :
    (x.setLock s l).preloadDone = x.preloadDone := by cases s <;> rfl

@[simp] theorem CacheState.setLock_al0 (x : CacheState) (s : Sec) (l : LockSection) :
    (x.setLock s l).al0 = x.al0 := by cases s <;> rfl

@[simp] theorem CacheState.setLock_al1 (x : CacheState) (s : Sec) (l : LockSection) :
    (x.setLock s l).al1 = x.al1 := by cases s <;> rfl

@[simp] theorem CacheState.setLock_alOrder (x : CacheState) (s : Sec) (l : LockSection) :
    (x.setLock s l).alOrder = x.alOrder := by cases s <;> rfl

@[simp] theorem CacheState.setLock_invalDone (x : CacheState) (s : Sec) (l : LockSection) :
    (x.setLock s l).invalDone = x.invalDone := by cases s <;> rfl

@[simp] theorem CacheState.setLock_resident (x : CacheState) (s : Sec) (l : LockSection) :
    (x.setLock s l).resident = x.resident := by cases s <;> rfl

@[simp] theorem CacheState.setLock_acsCnt (x : CacheState) (s : Sec) (l : LockSection) :
    (x.setLock s l).acsCnt = x.acsCnt := by cases s <;> rfl

@[simp] theorem CacheState.setLock_missCnt (x : CacheState) (s : Sec) (l : LockSection) :
    (x.setLock s l).missCnt = x.missCnt := by cases s <;> rfl

@[simp] theorem CacheState.setLock_psramMissCnt (x : CacheState) (s : Sec) (l : LockSection) :
    (x.setLock s l).psramMissCnt = x.psramMissCnt := by cases s <;> rfl

@[simp] theorem CacheState.setAl_cstate (x : CacheState) (s : Sec) (l : AutoloadSection) :
    (x.setAl s l).cstate = x.cstate := by cases s <;> rfl

@[simp] theorem CacheState.setAl_shut (x : CacheState) (s : Sec) (l : AutoloadSection) :
    (x.setAl s l).shut = x.shut := by cases s <;> rfl

@[simp] theorem CacheState.setAl_wrap (x : CacheState) (s : Sec) (l : AutoloadSection) :
    (x.setAl s l).wrap = x.wrap := by cases s <;> rfl

@[simp] theorem CacheState.setAl_freezeMode (x : CacheState) (s : Sec) (l : AutoloadSection) :
    (x.setAl s l).freezeMode = x.freezeMode := by cases s <;> rfl

@[simp] theorem CacheState.setAl_lock0 (x : CacheState) (s : Sec) (l : AutoloadSection) :
    (x.setAl s l).lock0 = x.lock0 := by cases s <;> rfl

@[simp] theorem CacheState.setAl_lock1 (x : CacheState) (s : Sec) (l : AutoloadSection) :
    (x.setAl s l).lock1 = x.lock1 := by cases s <;> rfl

@[simp] theorem CacheState.setAl_preloadAddr (x : CacheState) (s : Sec) (l : AutoloadSection) :
    (x.setAl s l).preloadAddr = x.preloadAddr := by cases s <;> rfl

@[simp] theorem CacheState.setAl_preloadSize (x : CacheState) (s : Sec) (l : AutoloadSection) :
    (x.setAl s l).preloadSize = x.preloadSize := by cases s <;> rfl

@[simp] theorem CacheState.setAl_preloadOrder (x : CacheState) (s : Sec) (l : AutoloadSection) :
    (x.setAl s l).preloadOrder = x.preloadOrder := by cases s <;> rfl

@[simp] theorem CacheState.setAl_preloadDone (x : CacheState) (s : Sec) (l : AutoloadSection) :
    (x.setAl s l).preloadDone = x.preloadDone := by cases s <;> rfl

@[simp] theorem CacheState.setAl_alOrder (x : CacheState) (s : Sec) (l : AutoloadSection) :
    (x.setAl s l).alOrder = x.alOrder := by cases s <;> rfl

@[simp] theorem CacheState.setAl_invalDone (x : CacheState) (s : Sec) (l : AutoloadSection) :
    (x.setAl s l).invalDone = x.invalDone := by cases s <;> rfl

@[simp] theorem CacheState.setAl_resident (x : CacheState) (s : Sec) (l : AutoloadSection) :
    (x.setAl s l).resident = x.resident := by cases s <;> rfl

@[simp] theorem CacheState.setAl_acsCnt (x : CacheState) (s : Sec) (l : AutoloadSection) :
    (x.setAl s l).acsCnt = x.acsCnt := by cases s <;> rfl

@[simp] theorem CacheState.setAl_missCnt (x : CacheState) (s : Sec) (l : AutoloadSection) :
    (x.setAl s l).missCnt = x.missCnt := by cases s <;> rfl

@[simp] theorem CacheState.setAl_psramMissCnt (x : CacheState) (s : Sec) (l : AutoloadSection) :
    (x.setAl s l).psramMissCnt = x.psramMissCnt := by cases s <;> rfl

theorem CacheState.lock_setLock (x : CacheState) (s s' : Sec) (l : LockSection) :
    (x.setLock s l).lock s' = if s' = s then l else x.lock s' := by
  cases s <;> cases s' <;> rfl

@[simp] theorem CacheState.lock_setLock_same (x : CacheState) (s : Sec) (l : LockSection) :
    (x.setLock s l).lock s = l := by cases s <;> rfl

theorem CacheState.al_setAl (x : CacheState) (s s' : Sec) (l : AutoloadSection) :
    (x.setAl s l).al s' = if s' = s then l else x.al s' := by
  cases s <;> cases s' <;> rfl

@[simp] theorem CacheState.al_setAl_same (x : CacheState) (s : Sec) (l : AutoloadSection) :
    (x.setAl s l).al s = l := by cases s <;> rfl

@[simp] theorem PmsTable.setBound_attr0 (x : PmsTable) (k : PmsSec) (y : BitVec 12) :
    (x.setBound k y).attr0 = x.attr0 := by cases k <;> rfl

@[simp] theorem PmsTable.setBound_attr1 (x : PmsTable) (k : PmsSec) (y : BitVec 12) :
    (x.setBound k y).attr1 = x.attr1 := by cases k <;> rfl

@[simp] theorem PmsTable.setBound_attr2 (x : PmsTable) (k : PmsSec) (y : BitVec 12) :
    (x.setBound k y).attr2 = x.attr2 := by cases k <;> rfl

@[simp] theorem PmsTable.setBound_lock (x : PmsTable) (k : PmsSec) (y : BitVec 12) :
    (x.setBound k y).lock = x.lock := by cases k <;> rfl

theorem PmsTable.bound_setBound (x : PmsTable) (k k' : PmsSec) (y : BitVec 12) :
    (x.setBound k y).bound k' = if k' = k then y else x.bound k' := by
  cases k <;> cases k' <;> rfl

@[simp] theorem PmsTable.setAttr_bound0 (x : PmsTable) (k : PmsSec) (y : BitVec 8) :
    (x.setAttr k y).bound0 = x.bound0 := by cases k <;> rfl

@[simp] theorem PmsTable.setAttr_bound1 (x : PmsTable) (k : PmsSec) (y : BitVec 8) :
    (x.setAttr k y).bound1 = x.bound1 := by cases k <;> rfl

@[simp] theorem PmsTable.setAttr_bound2 (x : PmsTable) (k : PmsSec) (y : BitVec 8) :
    (x.setAttr k y).bound2 = x.bound2 := by cases k <;> rfl

@[simp] theorem PmsTable.setAttr_lock (x : PmsTable) (k : PmsSec) (y : BitVec 8) :
    (x.setAttr k y).lock = x.lock := by cases k <;> rfl

theorem PmsTable.attr_setAttr (x : PmsTable) (k k' : PmsSec) (y : BitVec 8) :
    (x.setAttr k y).attr k' = if k' = k then y else x.attr k' := by
  cases k <;> cases k' <;> rfl

/-! ## `satStatus` -/

@[simp] theorem satStatus_mmu (x : Word) (n : Nat) (d : Device) :
    (satStatus x n d).mmu = d.mmu := by unfold satStatus; split <;> rfl

@[simp] theorem satStatus_icache (x : Word) (n : Nat) (d : Device) :
    (satStatus x n d).icache = d.icache := by unfold satStatus; split <;> rfl

@[simp] theorem satStatus_dcache (x : Word) (n : Nat) (d : Device) :
    (satStatus x n d).dcache = d.dcache := by unfold satStatus; split <;> rfl

@[simp] theorem satStatus_ipms (x : Word) (n : Nat) (d : Device) :
    (satStatus x n d).ipms = d.ipms := by unfold satStatus; split <;> rfl

@[simp] theorem satStatus_dpms (x : Word) (n : Nat) (d : Device) :
    (satStatus x n d).dpms = d.dpms := by unfold satStatus; split <;> rfl

@[simp] theorem satStatus_faultVaddr (x : Word) (n : Nat) (d : Device) :
    (satStatus x n d).faultVaddr = d.faultVaddr := by unfold satStatus; split <;> rfl

@[simp] theorem satStatus_faultCode (x : Word) (n : Nat) (d : Device) :
    (satStatus x n d).faultCode = d.faultCode := by unfold satStatus; split <;> rfl

@[simp] theorem satStatus_faultContent (x : Word) (n : Nat) (d : Device) :
    (satStatus x n d).faultContent = d.faultContent := by unfold satStatus; split <;> rfl

@[simp] theorem satStatus_intEna (x : Word) (n : Nat) (d : Device) :
    (satStatus x n d).intEna = d.intEna := by unfold satStatus; split <;> rfl

@[simp] theorem satStatus_intSt (x : Word) (n : Nat) (d : Device) :
    (satStatus x n d).intSt = if x = cntMax then d.intSt ||| (1#11 <<< n) else d.intSt := by unfold satStatus; split <;> rfl

@[simp] theorem satStatus_cache (x : Word) (n : Nat) (d : Device) (c : CacheId) :
    (satStatus x n d).cache c = d.cache c := by unfold satStatus; split <;> simp

@[simp] theorem satStatus_pms (x : Word) (n : Nat) (d : Device) (b : Bus) :
    (satStatus x n d).pms b = d.pms b := by unfold satStatus; split <;> simp

end Sys2Proof.Machine
end

