-- ==== Sys2Proof/Laws/Bits.lean ====
section
/-! SUPPORT. Laws/Bits.lean: the bits of words built from fields, of the residency set after loads and invalidates, and
membership in PAGES. -/

namespace Sys2Proof.Machine

/-! ## Words -/

theorem getLsbD_flagWord (n i : Nat) (b : Bool) (hn : n < 32) :
    (flagWord n b).getLsbD i = (b && decide (i = n)) := by
  unfold flagWord
  cases b
  · simp
  · simp only [if_true, Bool.true_and]
    by_cases h : i = n
    · subst h
      simp [hn]
    · by_cases h2 : i < n
      · simp [BitVec.getLsbD_shiftLeft, h2, h]
      · simp [BitVec.getLsbD_shiftLeft, BitVec.getLsbD_one, h]
        omega

theorem getLsbD_fieldWord {w : Nat} (n i : Nat) (x : BitVec w) :
    (fieldWord n x).getLsbD i = (decide (n ≤ i) && decide (i < 32) && x.getLsbD (i - n)) := by
  unfold fieldWord
  by_cases h1 : i < 32 <;> by_cases h2 : n ≤ i <;>
    simp [BitVec.getLsbD_shiftLeft, h1, h2, BitVec.getLsbD_setWidth]

/-! ## The residency set -/

@[simp] theorem getLsbD_setResident (r : BitVec 512) (q i : Nat) :
    (setResident r q).getLsbD i = (r.getLsbD i || decide (i = q ∧ i < 512)) := by
  unfold setResident
  by_cases h : i = q
  · subst h
    by_cases h2 : i < 512 <;> simp [BitVec.getLsbD_or, BitVec.getLsbD_shiftLeft, h2]
  · by_cases h2 : i < q
    · simp [BitVec.getLsbD_or, BitVec.getLsbD_shiftLeft, h2, h]
    · have : i - q ≠ 0 := by omega
      simp [BitVec.getLsbD_or, BitVec.getLsbD_shiftLeft, BitVec.getLsbD_one, h, this]

@[simp] theorem getLsbD_clearResident (r : BitVec 512) (q i : Nat) :
    (clearResident r q).getLsbD i = (r.getLsbD i && decide (i ≠ q)) := by
  unfold clearResident
  by_cases hi : i < 512
  · by_cases h : i = q
    · subst h
      simp [hi]
    · by_cases h2 : i < q
      · simp [hi, h2, h]
      · have : i - q ≠ 0 := by omega
        simp [hi, h, this]
  · simp [BitVec.getLsbD_of_ge _ _ (Nat.le_of_not_lt hi)]

/-- After `for p in ps: resident[p] <- 1` a page is resident when it was or is listed. -/
theorem getLsbD_loadPages (ps : List Nat) (r : BitVec 512) (i : Nat) :
    (loadPages r ps).getLsbD i = (r.getLsbD i || decide (i ∈ ps ∧ i < 512)) := by
  unfold loadPages
  induction ps generalizing r with
  | nil => simp
  | cons q ps ih =>
    rw [List.foldl_cons, ih, getLsbD_setResident]
    generalize r.getLsbD i = b
    by_cases h : i = q <;> by_cases h2 : i < 512 <;> by_cases h3 : i ∈ ps <;> cases b <;> simp_all

/-- PAGES(c, r) in arithmetic (45 R118). -/
theorem inPages_iff {p : Params} {c : CacheId} {r : Range} {q : Nat} :
    inPages p c r q = true ↔ r.size ≠ 0#32 ∧ firstPage p c r ≤ q ∧ q ≤ lastPage p c r := by
  simp [inPages, and_assoc]

/-- `q ∈ PAGES(c, r)` is what the list of pages holds (45 R118). -/
theorem mem_pages (p : Params) (c : CacheId) (r : Range) (q : Nat) :
    q ∈ pages p c r ↔ inPages p c r q = true := by
  unfold pages inPages
  by_cases h : r.size = 0#32
  · simp [h]
  · simp [h, List.mem_range']
    constructor
    · rintro ⟨k, hk, rfl⟩
      omega
    · rintro ⟨h1, h2⟩
      exact ⟨q - firstPage p c r, by omega, by omega⟩

/-- The walk order changes no membership (45 R122). -/
theorem mem_pagesInOrder (p : Params) (c : CacheId) (o : Bool) (r : Range) (q : Nat) :
    q ∈ pagesInOrder p c o r ↔ inPages p c r q = true := by
  cases o <;> simp [pagesInOrder, mem_pages]

/-- Loading the pages of a range, in either order. -/
theorem getLsbD_loadRange (p : Params) (c : CacheId) (o : Bool) (r : Range) (x : BitVec 512) (q : Nat) :
    (loadPages x (pagesInOrder p c o r)).getLsbD q =
      (x.getLsbD q || (inPages p c r q && decide (q < 512))) := by
  rw [getLsbD_loadPages]
  by_cases h : inPages p c r q = true
  · simp [mem_pagesInOrder, h]
  · simp [mem_pagesInOrder, h]

/-- After INVALIDATE a page is resident when it was and is pinned (45 R126). -/
theorem getLsbD_dropUnpinned (p : Params) (c : CacheId) (x : CacheState) (q : Nat) :
    (dropUnpinned p c x).getLsbD q = (x.resident.getLsbD q && pinned p c x q) := by
  have key : ∀ (l : List Nat) (r : BitVec 512),
      (l.foldl (fun r q => if pinned p c x q then r else clearResident r q) r).getLsbD q =
        (r.getLsbD q && (pinned p c x q || decide (q ∉ l))) := by
    intro l
    induction l with
    | nil => simp
    | cons k l ih =>
      intro r
      rw [List.foldl_cons, ih]
      by_cases hk : pinned p c x k = true
      · by_cases hq : q = k
        · subst hq; simp [hk]
        · simp [hk, hq]
      · by_cases hq : q = k
        · subst hq; simp [hk]
        · simp [hk, hq]
  unfold dropUnpinned
  rw [key]
  by_cases hq : q < 512
  · simp [hq]
  · simp [BitVec.getLsbD_of_ge _ _ (Nat.le_of_not_lt hq)]

/-- A set residency bit names a page of the window. -/
theorem lt_of_getLsbD {r : BitVec 512} {q : Nat} (h : r.getLsbD q = true) : q < 512 := by
  by_contra hq
  rw [BitVec.getLsbD_of_ge _ _ (Nat.le_of_not_lt hq)] at h
  exact absurd h (by simp)

end Sys2Proof.Machine
end

