-- ==== Sys2Proof/Laws/Memory.lean ====
section
/-! SUPPORT. Laws/Memory.lean: the backing stores: read after write, the canonical form and the store bound are kept by
every memory operation, and what MemRead and MemWrite can do (20_memory R58, R59). -/

namespace Sys2Proof.Machine

/-- Every cell of a canonical tail lies above the head. -/
theorem Memory.wf_cons {a : Nat} {b : Byte} {r : List Host.Cell} :
    Memory.wf ((a, b) :: r) = true ↔
      b ≠ Memory.unlisted ∧ (∀ x ∈ r, a < x.1) ∧ Memory.wf r = true := by
  simp [Memory.wf, and_assoc]

/-- An offset below every cell is unlisted. -/
theorem Memory.read_of_below : ∀ (r : List Host.Cell) (a : Nat), (∀ x ∈ r, a < x.1) →
    Memory.read r a = Memory.unlisted
  | [], _, _ => rfl
  | (x, y) :: r, a, h => by
    have hx : a < x := h (x, y) (by simp)
    have hr := Memory.read_of_below r a (fun z hz => h z (by simp [hz]))
    simp [Memory.read, Nat.ne_of_lt hx, hr]

/-- The cells of a written list come from the old list or are the written one. -/
theorem Memory.mem_write : ∀ (m : List Host.Cell) (a : Nat) (b : Byte) (x : Host.Cell),
    x ∈ Memory.write m a b → x = (a, b) ∨ x ∈ m
  | [], a, b, x, h => by
    simp only [Memory.write] at h
    split at h <;> simp_all
  | (p, q) :: r, a, b, x, h => by
    simp only [Memory.write] at h
    split at h
    · split at h
      · exact .inr h
      · simpa using h
    · split at h
      · split at h
        · exact .inr (by simp [h])
        · rcases List.mem_cons.1 h with h | h
          · exact .inl h
          · exact .inr (by simp [h])
      · rcases List.mem_cons.1 h with h | h
        · exact .inr (by simp [h])
        · rcases Memory.mem_write r a b x h with h | h
          · exact .inl h
          · exact .inr (by simp [h])

/-- A byte write keeps the canonical form. -/
theorem Memory.wf_write : ∀ (m : List Host.Cell) (a : Nat) (b : Byte),
    Memory.wf m = true → Memory.wf (Memory.write m a b) = true
  | [], a, b, _ => by
    by_cases hb : b = Memory.unlisted <;> simp [Memory.write, hb, Memory.wf]
  | (p, q) :: r, a, b, h => by
    obtain ⟨hq, hp, hr⟩ := Memory.wf_cons.1 h
    by_cases h1 : a < p
    · by_cases hb : b = Memory.unlisted
      · simp [Memory.write, h1, hb, h]
      · have habove : ∀ x ∈ (p, q) :: r, a < x.1 := by
          intro x hx
          rcases List.mem_cons.1 hx with rfl | hx
          · exact h1
          · exact Nat.lt_trans h1 (hp x hx)
        simpa [Memory.write, h1, hb] using Memory.wf_cons.2 ⟨hb, habove, h⟩
    · by_cases h2 : a = p
      · subst h2
        by_cases hb : b = Memory.unlisted
        · simp [Memory.write, hb, hr]
        · simpa [Memory.write, hb] using Memory.wf_cons.2 ⟨hb, hp, hr⟩
      · have habove : ∀ x ∈ Memory.write r a b, p < x.1 := by
          intro x hx
          rcases Memory.mem_write r a b x hx with rfl | hx
          · exact Nat.lt_of_le_of_ne (Nat.le_of_not_lt h1) (Ne.symm h2)
          · exact hp x hx
        simpa [Memory.write, h1, h2] using Memory.wf_cons.2 ⟨hq, habove, Memory.wf_write r a b hr⟩

/-- Read after write, on a canonical list. -/
theorem Memory.read_write : ∀ (m : List Host.Cell) (a : Nat) (b : Byte) (x : Nat), Memory.wf m = true →
    Memory.read (Memory.write m a b) x = if x = a then b else Memory.read m x
  | [], a, b, x, _ => by
    by_cases hb : b = Memory.unlisted <;> by_cases hx : x = a <;> simp [Memory.write, Memory.read, hb, hx]
  | (p, q) :: r, a, b, x, h => by
    obtain ⟨hq, hp, hr⟩ := Memory.wf_cons.1 h
    by_cases h1 : a < p
    · by_cases hb : b = Memory.unlisted
      · by_cases hx : x = a
        · subst hx
          have := Memory.read_of_below ((p, q) :: r) x (by
            intro z hz
            rcases List.mem_cons.1 hz with rfl | hz
            · exact h1
            · exact Nat.lt_trans h1 (hp z hz))
          simp [Memory.write, h1, hb, this]
        · simp [Memory.write, h1, hb, hx]
      · by_cases hx : x = a <;> simp [Memory.write, h1, hb, hx, Memory.read]
    · by_cases h2 : a = p
      · subst h2
        by_cases hb : b = Memory.unlisted
        · by_cases hx : x = a
          · subst hx
            simp [Memory.write, hb, Memory.read_of_below r x hp]
          · simp [Memory.write, hb, hx, Memory.read]
        · by_cases hx : x = a <;> simp [Memory.write, hb, hx, Memory.read]
      · have ih := Memory.read_write r a b x hr
        by_cases hx : x = p
        · subst hx
          have : x ≠ a := fun e => h2 e.symm
          simp [Memory.write, h1, h2, Memory.read, this]
        · simp [Memory.write, h1, h2, Memory.read, hx, ih]

/-- A run of byte writes keeps the canonical form. -/
theorem Memory.wf_writeBytes : ∀ (bs : List Byte) (m : List Host.Cell) (off : Nat),
    Memory.wf m = true → Memory.wf (Memory.writeBytes m off bs) = true
  | [], _, _, h => h
  | b :: bs, m, off, h => Memory.wf_writeBytes bs _ _ (Memory.wf_write m off b h)

/-- Reading one byte after a run of byte writes: the written byte inside the run, the old byte outside it. -/
theorem Memory.read_writeBytes : ∀ (bs : List Byte) (m : List Host.Cell) (off x : Nat), Memory.wf m = true →
    Memory.read (Memory.writeBytes m off bs) x =
      if h : off ≤ x ∧ x < off + bs.length then bs[x - off]'(by omega) else Memory.read m x
  | [], m, off, x, _ => by
    simp [Memory.writeBytes]
  | b :: bs, m, off, x, h => by
    have ih := Memory.read_writeBytes bs (Memory.write m off b) (off + 1) x (Memory.wf_write m off b h)
    rw [Memory.writeBytes, ih, Memory.read_write m off b x h]
    by_cases h1 : x = off
    · subst h1
      simp
    · by_cases h2 : off + 1 ≤ x ∧ x < off + 1 + bs.length
      · have h3 : off ≤ x ∧ x < off + (b :: bs).length := by simp; omega
        obtain ⟨k, rfl⟩ : ∃ k, x = off + 1 + k := ⟨x - (off + 1), by omega⟩
        have h4 : off + 1 + k - off = k + 1 := by omega
        simp only [dif_pos h2, dif_pos h3, h4]
        simp
      · have h3 : ¬ (off ≤ x ∧ x < off + (b :: bs).length) := by simp; omega
        simp only [dif_neg h2, dif_neg h3, if_neg h1]

/-- A byte write inside a store keeps its cells inside it. -/
theorem Memory.below_write (size : Nat) (m : List Host.Cell) (a : Nat) (b : Byte) (ha : a < size)
    (h : Memory.below size m = true) : Memory.below size (Memory.write m a b) = true := by
  simp only [Memory.below, List.all_eq_true, decide_eq_true_eq] at *
  intro x hx
  rcases Memory.mem_write m a b x hx with rfl | hx
  · exact ha
  · exact h x hx

/-- A run of byte writes inside a store keeps its cells inside it. -/
theorem Memory.below_writeBytes (size : Nat) : ∀ (bs : List Byte) (m : List Host.Cell) (off : Nat),
    off + bs.length ≤ size → Memory.below size m = true → Memory.below size (Memory.writeBytes m off bs) = true
  | [], _, _, _, h => h
  | b :: bs, m, off, hl, h => by
    simp only [List.length_cons] at hl
    exact Memory.below_writeBytes size bs _ _ (by omega) (Memory.below_write size m off b (by omega) h)

@[simp] theorem Memory.length_readBytes (m : List Host.Cell) (off n : Nat) :
    (Memory.readBytes m off n).length = n := by simp [Memory.readBytes]

/-- What MemWrite can do: nothing, or replace the named store by the written one, of a range inside it. -/
theorem memWrite_cases (st : StoreId) (off : Nat) (bs : List Byte) (s : State) :
    (storeSize s.cfg st < off + bs.length ∧ memWrite st off bs s = s) ∨
    (off + bs.length ≤ storeSize s.cfg st ∧
      memWrite st off bs s = s.setStore st (Memory.writeBytes (s.store st) off bs)) := by
  unfold memWrite
  by_cases h : off + bs.length ≤ storeSize s.cfg st
  · exact .inr ⟨h, by simp [h]⟩
  · exact .inl ⟨by omega, by simp [h]⟩

@[simp] theorem memWrite_dev (st : StoreId) (off : Nat) (bs : List Byte) (s : State) :
    (memWrite st off bs s).dev = s.dev := by
  rcases memWrite_cases st off bs s with ⟨_, h⟩ | ⟨_, h⟩ <;> simp [h]

@[simp] theorem memWrite_cfg (st : StoreId) (off : Nat) (bs : List Byte) (s : State) :
    (memWrite st off bs s).cfg = s.cfg := by
  rcases memWrite_cases st off bs s with ⟨_, h⟩ | ⟨_, h⟩ <;> simp [h]

@[simp] theorem memWrite_draws (st : StoreId) (off : Nat) (bs : List Byte) (s : State) :
    (memWrite st off bs s).draws = s.draws := by
  rcases memWrite_cases st off bs s with ⟨_, h⟩ | ⟨_, h⟩ <;> simp [h]

@[simp] theorem memWrite_program (st : StoreId) (off : Nat) (bs : List Byte) (s : State) :
    (memWrite st off bs s).program = s.program := by
  rcases memWrite_cases st off bs s with ⟨_, h⟩ | ⟨_, h⟩ <;> simp [h]

@[simp] theorem memWrite_position (st : StoreId) (off : Nat) (bs : List Byte) (s : State) :
    (memWrite st off bs s).position = s.position := by
  rcases memWrite_cases st off bs s with ⟨_, h⟩ | ⟨_, h⟩ <;> simp [h]

@[simp] theorem memWrite_answer (st : StoreId) (off : Nat) (bs : List Byte) (s : State) :
    (memWrite st off bs s).answer = s.answer := by
  rcases memWrite_cases st off bs s with ⟨_, h⟩ | ⟨_, h⟩ <;> simp [h]

/-- The bytes of the stores after MemWrite: the written bytes in the range of the named store, every other byte as
before. -/
theorem byteAt_memWrite (st st' : StoreId) (off x : Nat) (bs : List Byte) (s : State)
    (hwf : Memory.wf (s.store st) = true) (hin : off + bs.length ≤ storeSize s.cfg st) :
    (memWrite st off bs s).byteAt st' x =
      if h : st' = st ∧ off ≤ x ∧ x < off + bs.length then bs[x - off]'(by omega) else s.byteAt st' x := by
  rcases memWrite_cases st off bs s with ⟨h, _⟩ | ⟨_, h⟩
  · omega
  · rw [h]
    unfold State.byteAt
    rw [State.store_setStore]
    by_cases hs : st' = st
    · subst hs
      rw [if_pos rfl, Memory.read_writeBytes _ _ _ _ hwf]
      by_cases hx : off ≤ x ∧ x < off + bs.length <;> simp [hx]
    · simp [hs]

/-- A MemWrite outside its store changes no byte (20_memory R59). -/
theorem memWrite_outside (st : StoreId) (off : Nat) (bs : List Byte) (s : State)
    (h : storeSize s.cfg st < off + bs.length) : memWrite st off bs s = s := by
  unfold memWrite
  rw [if_neg (by omega)]

/-- What MemRead answers: the bytes of the store, or the drawn bytes of a range that is not inside it. -/
theorem memRead_cases (st : StoreId) (off n : Nat) (s : State) :
    (off + n ≤ storeSize s.cfg st ∧ memRead st off n s = Memory.readBytes (s.store st) off n) ∨
    (storeSize s.cfg st < off + n ∧ memRead st off n s = drawnBytes st off n s) := by
  unfold memRead
  by_cases h : off + n ≤ storeSize s.cfg st
  · exact .inl ⟨h, if_pos h⟩
  · exact .inr ⟨by omega, if_neg h⟩

@[simp] theorem length_drawnBytes (st : StoreId) (off n : Nat) (s : State) : (drawnBytes st off n s).length = n := by
  simp [drawnBytes]

@[simp] theorem length_memRead (st : StoreId) (off n : Nat) (s : State) : (memRead st off n s).length = n := by
  rcases memRead_cases st off n s with ⟨_, h⟩ | ⟨_, h⟩ <;> simp [h]

end Sys2Proof.Machine
end

