-- ==== Sys2Proof/Laws/Run.lean ====
section
/-! SUPPORT. Laws/Run.lean: `exec` of an instruction is the effect of its transaction (`exec_eq_run`). A proof about all
96 instructions is then a proof about the seven kinds of transaction: cite `exec_cases`, not the meanings. -/

namespace Sys2Proof.Machine

theorem alignedOffset_iff (off : BitVec 12) : alignedOffset off = true ↔ off.toNat % 4 = 0 := by
  unfold alignedOffset
  have h0 : off.getLsbD 0 = decide (off.toNat % 2 = 1) := by
    simp [BitVec.getLsbD, Nat.testBit, Bool.beq_eq_decide_eq]
  have h1 : off.getLsbD 1 = decide (off.toNat / 2 % 2 = 1) := by
    simp [BitVec.getLsbD, Nat.testBit, Nat.shiftRight_eq_div_pow, Bool.beq_eq_decide_eq]
  rw [h0, h1]
  simp
  omega

/-- The MMU window: `0x800 + 4*i` is entry i (10_state R47). -/
theorem regAt_mmuOffset (i : BitVec 9) : regAt (mmuOffset i) = some (.mmuEntry i) := by
  have h1 : (mmuOffset i).getLsbD 11 = true := by
    rw [mmuOffset, BitVec.getLsbD_append, BitVec.getLsbD_append]
    simp
  have h2 : (mmuOffset i).extractLsb' 2 9 = i := by
    ext j hj
    simp only [mmuOffset, BitVec.getElem_extractLsb', BitVec.getLsbD_append]
    have h3 : ¬ 2 + j < 2 := by omega
    have h4 : 2 + j - 2 = j := by omega
    simp [h3, h4, hj]
  rw [regAt, if_pos h1, h2]

theorem aligned_mmuOffset (i : BitVec 9) : alignedOffset (mmuOffset i) = true := by
  have h0 : (mmuOffset i).getLsbD 0 = false := by rw [mmuOffset, BitVec.getLsbD_append]; simp
  have h1 : (mmuOffset i).getLsbD 1 = false := by rw [mmuOffset, BitVec.getLsbD_append]; simp
  simp only [alignedOffset, h0, h1, Bool.not_false, Bool.and_self]

/-- The offset of a register relative to its block (10_state R31). -/
def blockRel : BlockReg → BitVec 12
  | .ctrl => 0x00
  | .freeze => 0x04
  | .lockCtrl => 0x08
  | .lockAddr .s0 => 0x0C
  | .lockSize .s0 => 0x10
  | .lockAddr .s1 => 0x14
  | .lockSize .s1 => 0x18
  | .preloadCtrl => 0x1C
  | .preloadAddr => 0x20
  | .preloadSize => 0x24
  | .autoloadCtrl => 0x28
  | .autoloadAddr .s0 => 0x2C
  | .autoloadSize .s0 => 0x30
  | .autoloadAddr .s1 => 0x34
  | .autoloadSize .s1 => 0x38
  | .syncCtrl => 0x3C
  | .cntCtrl => 0x40
  | .acsCnt => 0x44
  | .missCnt => 0x48
  | .psramMissCnt => 0x4C
  | .pmsBoundary .k0 => 0x50
  | .pmsBoundary .k1 => 0x54
  | .pmsBoundary .k2 => 0x58
  | .pmsAttr .k0 => 0x5C
  | .pmsAttr .k1 => 0x60
  | .pmsAttr .k2 => 0x64
  | .pmsLock => 0x68

/-- The one aligned offset of a register (10_state R31, R47). -/
def regOffset : Reg → BitVec 12
  | .block c r => blockOffset c (blockRel r)
  | .intSt => 0x100
  | .intEna => 0x104
  | .faultVaddr => 0x108
  | .faultInfo => 0x10C
  | .mmuEntry i => mmuOffset i

theorem regAt_regOffset (r : Reg) : regAt (regOffset r) = some r := by
  cases r with
  | mmuEntry i => exact regAt_mmuOffset i
  | block c r => cases c <;> cases r <;> (try rename_i k; cases k) <;> decide +kernel
  | _ => decide +kernel

theorem aligned_regOffset (r : Reg) : alignedOffset (regOffset r) = true := by
  cases r with
  | mmuEntry i => exact aligned_mmuOffset i
  | block c r => cases c <;> cases r <;> (try rename_i k; cases k) <;> decide +kernel
  | _ => decide +kernel

/-- An aligned offset that names a register is the register's own: the map is a bijection onto its range. -/
theorem regOffset_of_regAt {off : BitVec 12} {r : Reg} (h : regAt off = some r) (ha : alignedOffset off = true) :
    off = regOffset r := by
  have key : ∀ n : BitVec 12, alignedOffset n = true →
      ((regAt n).map regOffset).getD n = n := by
    decide +kernel
  have := key off ha
  rw [h] at this
  exact this.symm

/-- The bus of a request (30_encoding R68). -/
def attrBus (a : BitVec 4) : Bus := if a.getLsbD 3 then .dbus else .ibus

/-- The effect of a transaction, whatever row it is named after. -/
def runTransaction (t : Transaction) (s : State) : Result :=
  match t with
  | .rd _ off =>
    if alignedOffset off then .next (s.commit s.dev (.word (readReg (regAt off) s.dev)))
    else .refused .unalignedOffset
  | .wr _ off v =>
    if alignedOffset off then .next (s.commit (writeReg s.cfg (regAt off) v s.dev) .nothing)
    else .refused .unalignedOffset
  | .mmuGet index => execMmuGet index s
  | .mmuSet index page invalid => execMmuSet index page invalid s
  | .bus a va len wdata => busAccess (attrBus a) (worldOf a) ((classOf a).getD .read) va len wdata s
  | .evict c p => execEvict c p s
  | .reset => execReset s

/-- The meaning of an instruction is the effect of its transaction. -/
theorem exec_eq_run (i : Instr) (s : State) : exec i s = runTransaction (encode i) s := by
  cases i
  case mmuRead i =>
    simp only [exec, encode, runTransaction, execMmuRead, regAt_mmuOffset, aligned_mmuOffset, if_true]
    rfl
  case mmuWrite i v =>
    simp only [exec, encode, runTransaction, execMmuWrite, regAt_mmuOffset, aligned_mmuOffset, if_true]
    rfl
  case ibusRead w va len => cases w <;> rfl
  case ibusWrite w va wdata => cases w <;> rfl
  case ibusFetch w va len => cases w <;> rfl
  case dbusRead w va len => cases w <;> rfl
  case dbusWrite w va wdata => cases w <;> rfl
  case dbusFetch w va len => cases w <;> rfl
  all_goals rfl

/-- What an instruction can do, by the kind of its transaction. -/
theorem exec_cases {i : Instr} {s t : State} (h : exec i s = .next t) :
    (∃ w off, encode i = .rd w off ∧ alignedOffset off = true ∧
      t = s.commit s.dev (.word (readReg (regAt off) s.dev))) ∨
    (∃ w off v, encode i = .wr w off v ∧ alignedOffset off = true ∧
      t = s.commit (writeReg s.cfg (regAt off) v s.dev) .nothing) ∨
    (∃ index, encode i = .mmuGet index ∧
      ((512 ≤ index ∧ t = s.commit s.dev .outOfRange) ∨
        (index < 512 ∧ t = s.commit s.dev (.entry (s.dev.entry index).page (s.dev.entry index).invalid)))) ∨
    (∃ index page invalid, encode i = .mmuSet index page invalid ∧
      ((512 ≤ index ∧ t = s.commit s.dev .outOfRange) ∨
        (index < 512 ∧ t = s.commit (s.dev.setEntry index { page := page, invalid := invalid }) (.ok [])))) ∨
    (∃ a va len wdata, encode i = .bus a va len wdata ∧
      busAccess (attrBus a) (worldOf a) ((classOf a).getD .read) va len wdata s = .next t) ∨
    (∃ c p, encode i = .evict c p ∧ s.dev.residentAt c p.toNat = true ∧
      pinned s.cfg c (s.dev.cache c) p.toNat = false ∧ (s.dev.cache c).cstate ≠ .frozen ∧
      t = s.commit (s.dev.setCache c
        { s.dev.cache c with resident := clearResident (s.dev.cache c).resident p.toNat }) .nothing) ∨
    (encode i = .reset ∧ t = s.commit (Device.reset s.cfg) .nothing) := by
  rw [exec_eq_run] at h
  cases he : encode i with
  | rd w off =>
    rw [he] at h
    simp only [runTransaction] at h
    split at h
    · rename_i ha
      exact .inl ⟨w, off, rfl, ha, by injection h with h; exact h.symm⟩
    · cases h
  | wr w off v =>
    rw [he] at h
    simp only [runTransaction] at h
    split at h
    · rename_i ha
      exact .inr (.inl ⟨w, off, v, rfl, ha, by injection h with h; exact h.symm⟩)
    · cases h
  | mmuGet index =>
    rw [he] at h
    simp only [runTransaction, execMmuGet] at h
    split at h <;> rename_i hi <;> injection h with h
    · exact .inr (.inr (.inl ⟨index, rfl, .inl ⟨hi, h.symm⟩⟩))
    · exact .inr (.inr (.inl ⟨index, rfl, .inr ⟨Nat.lt_of_not_le hi, h.symm⟩⟩))
  | mmuSet index page invalid =>
    rw [he] at h
    simp only [runTransaction, execMmuSet] at h
    split at h <;> rename_i hi <;> injection h with h
    · exact .inr (.inr (.inr (.inl ⟨index, page, invalid, rfl, .inl ⟨hi, h.symm⟩⟩)))
    · exact .inr (.inr (.inr (.inl ⟨index, page, invalid, rfl, .inr ⟨Nat.lt_of_not_le hi, h.symm⟩⟩)))
  | bus a va len wdata =>
    rw [he] at h
    exact .inr (.inr (.inr (.inr (.inl ⟨a, va, len, wdata, rfl, h⟩))))
  | evict c p =>
    rw [he] at h
    simp only [runTransaction, execEvict] at h
    split at h
    · rename_i hc
      injection h with h
      exact .inr (.inr (.inr (.inr (.inr (.inl ⟨c, p, rfl, hc.1, hc.2.1, hc.2.2, h.symm⟩)))))
    · cases h
  | reset =>
    rw [he] at h
    simp only [runTransaction, execReset] at h
    injection h with h
    exact .inr (.inr (.inr (.inr (.inr (.inr ⟨rfl, h.symm⟩)))))

/-- Only RESET has the reset input as its transaction. -/
theorem encode_eq_reset {i : Instr} (h : encode i = .reset) : i = .reset := by
  cases i <;> first | rfl | (simp [encode] at h)

/-- Every meaning of a register write row is the write of its register. -/
theorem exec_write {i : Instr} {off : BitVec 12} {v : Word} (he : encode i = .wr 32 off v)
    (ha : alignedOffset off = true) (s : State) :
    exec i s = .next (s.commit (writeReg s.cfg (regAt off) v s.dev) .nothing) := by
  rw [exec_eq_run, he]
  simp only [runTransaction, ha, if_true]

/-- REG_READ of a register's offset answers its read value. -/
theorem exec_regRead (s : State) (r : Reg) :
    exec (.regRead (regOffset r)) s = .next { s with answer := .word (readReg (some r) s.dev) } := by
  rw [exec_eq_run]
  simp only [encode, runTransaction, aligned_regOffset, regAt_regOffset, if_true]
  rfl

/-- REG_WRITE of a register's offset is the write of that register. -/
theorem exec_regWrite (s : State) (r : Reg) (v : Word) :
    exec (.regWrite (regOffset r) v) s = .next (s.commit (writeReg s.cfg (some r) v s.dev) .nothing) := by
  rw [exec_eq_run]
  simp only [encode, runTransaction, aligned_regOffset, regAt_regOffset, if_true]

/-- What a step can do: the environment's store write, or the decoded instruction and an advance. -/
theorem step_cases {s t : State} (h : step s = .next t) :
    s.cfg.valid = true ∧
    ((∃ st off bytes, fetch s = some (.storeWrite st off bytes) ∧ t = advance (memWrite st off bytes s)) ∨
     (∃ tr i s', fetch s = some (.op tr) ∧ decode tr = .ok i ∧ exec i s = .next s' ∧ t = advance s')) := by
  unfold step at h
  split at h
  · rename_i hv
    refine ⟨hv, ?_⟩
    split at h
    · cases h
    · rename_i st off bytes hf
      injection h with h
      exact .inl ⟨st, off, bytes, hf, h.symm⟩
    · rename_i tr hf
      split at h
      · cases h
      · rename_i i hd
        cases hx : exec i s with
        | next s' =>
          rw [hx] at h
          simp only [advanceResult] at h
          injection h with h
          exact .inr ⟨tr, i, s', hf, hd, hx, h.symm⟩
        | fault f => rw [hx] at h; cases h
        | refused r => rw [hx] at h; cases h
  · cases h

end Sys2Proof.Machine
end

