-- ==== Sys2Proof/Laws/Frames.lean ====
section
/-! SUPPORT. Laws/Frames.lean: what the shared operations leave alone. `CacheOnly c d d'` says that an operation on cache c
changed nothing of the device but cache c and set status bits only; every command and every stage of a completed access
has it. `Grows` says that no page left. -/

namespace Sys2Proof.Machine

/-- d' agrees with d outside cache c, and no status bit was cleared. -/
structure CacheOnly (c : CacheId) (d d' : Device) : Prop where
  mmu : d'.mmu = d.mmu
  ipms : d'.ipms = d.ipms
  dpms : d'.dpms = d.dpms
  faultVaddr : d'.faultVaddr = d.faultVaddr
  faultCode : d'.faultCode = d.faultCode
  faultContent : d'.faultContent = d.faultContent
  intEna : d'.intEna = d.intEna
  other : ∀ c', c' ≠ c → d'.cache c' = d.cache c'
  status : ∀ n, d.intSt.getLsbD n = true → d'.intSt.getLsbD n = true

theorem CacheOnly.refl (c : CacheId) (d : Device) : CacheOnly c d d :=
  ⟨rfl, rfl, rfl, rfl, rfl, rfl, rfl, fun _ _ => rfl, fun _ h => h⟩

theorem CacheOnly.trans {c : CacheId} {d e f : Device} (h : CacheOnly c d e) (k : CacheOnly c e f) :
    CacheOnly c d f :=
  ⟨k.mmu.trans h.mmu, k.ipms.trans h.ipms, k.dpms.trans h.dpms, k.faultVaddr.trans h.faultVaddr,
    k.faultCode.trans h.faultCode, k.faultContent.trans h.faultContent, k.intEna.trans h.intEna,
    fun c' hc => (k.other c' hc).trans (h.other c' hc), fun n hn => k.status n (h.status n hn)⟩

theorem CacheOnly.pms {c : CacheId} {d e : Device} (h : CacheOnly c d e) (b : Bus) : e.pms b = d.pms b := by
  cases b
  · exact h.ipms
  · exact h.dpms

theorem CacheOnly.entry {c : CacheId} {d e : Device} (h : CacheOnly c d e) (i : Nat) : e.entry i = d.entry i := by
  unfold Device.entry
  rw [h.mmu]

theorem CacheOnly.setCache (c : CacheId) (x : CacheState) (d : Device) : CacheOnly c d (d.setCache c x) := by
  refine ⟨?_, ?_, ?_, ?_, ?_, ?_, ?_, ?_, ?_⟩ <;> simp
  intro c' hc
  simp [Device.cache_setCache, hc]

theorem getLsbD_status (x : BitVec 11) (n i : Nat) (hn : n < 11) :
    (x ||| (1#11 <<< n)).getLsbD i = (x.getLsbD i || decide (i = n)) := by
  rw [BitVec.getLsbD_or]
  congr 1
  by_cases h : i = n
  · subst h
    simp [hn]
  · by_cases h2 : i < n
    · simp [BitVec.getLsbD_shiftLeft, h2, h]
    · have : i - n ≠ 0 := by omega
      simp [BitVec.getLsbD_shiftLeft, BitVec.getLsbD_one, h, this]

theorem CacheOnly.setStatus (c : CacheId) (n : Nat) (d : Device) : CacheOnly c d (setStatus n d) := by
  refine ⟨rfl, rfl, rfl, rfl, rfl, rfl, rfl, fun c' _ => ?_, fun i hi => ?_⟩
  · simp
  · rw [setStatus_intSt, BitVec.getLsbD_or, hi, Bool.true_or]

theorem CacheOnly.satStatus (c : CacheId) (x : Word) (n : Nat) (d : Device) : CacheOnly c d (satStatus x n d) := by
  unfold Sys2Proof.Machine.satStatus
  split
  · exact .setStatus c n d
  · exact .refl c d

/-! ## Commands -/

theorem CacheOnly.cmdEnable (c : CacheId) (d : Device) : CacheOnly c d (cmdEnable c d) := by
  unfold Sys2Proof.Machine.cmdEnable
  split
  · exact .setCache ..
  · exact .refl ..

theorem CacheOnly.cmdDisable (c : CacheId) (d : Device) : CacheOnly c d (cmdDisable c d) := by
  unfold Sys2Proof.Machine.cmdDisable
  split
  · exact .setCache ..
  · exact .refl ..

theorem CacheOnly.cmdFreeze (c : CacheId) (d : Device) : CacheOnly c d (cmdFreeze c d) := by
  unfold Sys2Proof.Machine.cmdFreeze
  split
  · exact .setCache ..
  · exact .refl ..

theorem CacheOnly.cmdUnfreeze (c : CacheId) (d : Device) : CacheOnly c d (cmdUnfreeze c d) := by
  unfold Sys2Proof.Machine.cmdUnfreeze
  split
  · exact .setCache ..
  · exact .refl ..

theorem CacheOnly.cmdLock (p : Params) (c : CacheId) (s : Sec) (d : Device) : CacheOnly c d (cmdLock p c s d) := by
  unfold Sys2Proof.Machine.cmdLock
  dsimp only
  split
  · exact .setCache ..
  · exact .setStatus ..

theorem CacheOnly.cmdUnlock (c : CacheId) (s : Sec) (d : Device) : CacheOnly c d (cmdUnlock c s d) :=
  .setCache ..

theorem CacheOnly.cmdPreload (p : Params) (c : CacheId) (d : Device) : CacheOnly c d (cmdPreload p c d) := by
  unfold Sys2Proof.Machine.cmdPreload
  dsimp only
  split
  · split <;> exact .setCache ..
  · exact (CacheOnly.setCache ..).trans (.setStatus ..)

theorem CacheOnly.cmdArm (p : Params) (c : CacheId) (s : Sec) (d : Device) : CacheOnly c d (cmdArm p c s d) := by
  unfold Sys2Proof.Machine.cmdArm
  dsimp only
  split
  · exact .setCache ..
  · exact .setStatus ..

theorem CacheOnly.cmdDisarm (c : CacheId) (s : Sec) (d : Device) : CacheOnly c d (cmdDisarm c s d) :=
  .setCache ..

theorem CacheOnly.levelEdge {c : CacheId} (new old : Bool) {on off : Device → Device} (d : Device)
    (hon : CacheOnly c d (on d)) (hoff : CacheOnly c d (off d)) : CacheOnly c d (levelEdge new old on off d) := by
  unfold Sys2Proof.Machine.levelEdge
  split
  · exact .refl ..
  · split
    · exact hon
    · exact hoff

theorem CacheOnly.trigger {c : CacheId} (new : Bool) {cmd : Device → Device} (d : Device)
    (h : CacheOnly c d (cmd d)) : CacheOnly c d (trigger new cmd d) := by
  unfold Sys2Proof.Machine.trigger
  split
  · exact h
  · exact .refl ..

/-- The registers of a block that hold cache state, not the permission table. -/
def isPmsReg : BlockReg → Bool
  | .pmsBoundary _ => true
  | .pmsAttr _ => true
  | .pmsLock => true
  | _ => false

/-- A write to a cache register of block c touches cache c and the status only. -/
theorem CacheOnly.writeBlock (p : Params) (c : CacheId) (r : BlockReg) (v : Word) (d : Device)
    (hr : isPmsReg r = false) : CacheOnly c d (writeBlock p c r v d) := by
  cases r with
  | ctrl => exact (CacheOnly.setCache ..).trans (.levelEdge _ _ _ (.cmdEnable ..) (.cmdDisable ..))
  | freeze => exact (CacheOnly.setCache ..).trans (.levelEdge _ _ _ (.cmdFreeze ..) (.cmdUnfreeze ..))
  | lockCtrl =>
    exact (CacheOnly.levelEdge _ _ _ (.cmdLock ..) (.cmdUnlock ..)).trans
      (.levelEdge _ _ _ (.cmdLock ..) (.cmdUnlock ..))
  | lockAddr s => exact .setCache ..
  | lockSize s => exact .setCache ..
  | preloadCtrl => exact (CacheOnly.setCache ..).trans (.trigger _ _ (.cmdPreload ..))
  | preloadAddr => exact .setCache ..
  | preloadSize => exact .setCache ..
  | autoloadCtrl =>
    exact ((CacheOnly.setCache ..).trans (.levelEdge _ _ _ (.cmdArm ..) (.cmdDisarm ..))).trans
      (.levelEdge _ _ _ (.cmdArm ..) (.cmdDisarm ..))
  | autoloadAddr s => exact .setCache ..
  | autoloadSize s => exact .setCache ..
  | syncCtrl => exact .trigger _ _ (.setCache ..)
  | cntCtrl => exact .trigger _ _ (.setCache ..)
  | acsCnt => exact .refl ..
  | missCnt => exact .refl ..
  | psramMissCnt => exact .refl ..
  | pmsBoundary k => cases hr
  | pmsAttr k => cases hr
  | pmsLock => cases hr

/-! ## The stages of a completed access -/

theorem CacheOnly.countAccess (c : CacheId) (d : Device) : CacheOnly c d (countAccess c d) :=
  (CacheOnly.setCache ..).trans (.satStatus ..)

theorem CacheOnly.countMiss (c : CacheId) (d : Device) : CacheOnly c d (countMiss c d) :=
  (CacheOnly.setCache ..).trans (.satStatus ..)

theorem CacheOnly.countPsramMiss (d : Device) : CacheOnly .dcache d (countPsramMiss d) :=
  (CacheOnly.setCache ..).trans (.satStatus ..)

theorem CacheOnly.record (c : CacheId) (hit : Bool) (st : StoreId) (d : Device) :
    CacheOnly c d (record c hit st d) := by
  cases hit <;> cases c <;> cases st <;>
    first
    | exact (CacheOnly.countAccess ..).trans (.countMiss ..)
    | exact (CacheOnly.countAccess ..).trans (.countPsramMiss ..)
    | exact CacheOnly.countAccess ..

theorem CacheOnly.fillOnMiss (c : CacheId) (q : Nat) (hit : Bool) (d : Device) :
    CacheOnly c d (fillOnMiss c q hit d) := by
  unfold Sys2Proof.Machine.fillOnMiss
  split
  · exact .setCache ..
  · exact .refl ..

theorem CacheOnly.autoloadSection (p : Params) (c : CacheId) (k : Sec) (va : Word) (hit : Bool) (d : Device) :
    CacheOnly c d (autoloadSection p c k va hit d) := by
  unfold Sys2Proof.Machine.autoloadSection
  dsimp only
  split
  · exact .setCache ..
  · exact .refl ..

theorem CacheOnly.account (p : Params) (c : CacheId) (va : Word) (st : StoreId) (d : Device) :
    CacheOnly c d (account p c va st d) :=
  (((CacheOnly.record ..).trans (.fillOnMiss ..)).trans (.autoloadSection ..)).trans (.autoloadSection ..)

/-! ## The permission table -/

/-- A write to a permission register touches the table of its bus only. -/
theorem writeBlock_pms (p : Params) (c : CacheId) (r : BlockReg) (v : Word) (d : Device) (hr : isPmsReg r = true) :
    ∃ x, writeBlock p c r v d = d.setPms c.bus x ∧
      (∀ n, (d.pms c.bus).lock.getLsbD n = true → x.lock.getLsbD n = true) ∧
      ((d.pms c.bus).lock ≠ 0#3 → x.rules = (d.pms c.bus).rules) ∧
      ((d.pms c.bus).reservedClear → x.reservedClear) := by
  have hset : ∀ (b : Bus), d.setPms b (d.pms b) = d := by intro b; cases b <;> rfl
  have hattr : ∀ (t : PmsTable) (k : PmsSec) (a : BitVec 8), t.reservedClear →
      (t.setAttr k (a &&& 0x77#8)).reservedClear := by
    intro t k a ⟨h0, h1, h2⟩
    have hz : (a &&& 0x77#8) &&& 0x88#8 = 0#8 := by
      rw [BitVec.and_assoc]
      simp
    cases k
    · exact ⟨hz, h1, h2⟩
    · exact ⟨h0, hz, h2⟩
    · exact ⟨h0, h1, hz⟩
  cases r with
  | pmsBoundary k =>
    by_cases hl : (d.pms c.bus).lock = 0#3
    · refine ⟨(d.pms c.bus).setBound k (v.extractLsb' 0 12), ?_, ?_, fun h => absurd hl h, ?_⟩
      · simp only [writeBlock, pmsSetBoundary]
        rw [if_pos hl]
      · simp
      · intro h
        cases k <;> exact h
    · refine ⟨d.pms c.bus, ?_, fun _ h => h, fun _ => rfl, fun h => h⟩
      simp only [writeBlock, pmsSetBoundary]
      rw [if_neg hl, hset]
  | pmsAttr k =>
    by_cases hl : (d.pms c.bus).lock = 0#3
    · refine ⟨(d.pms c.bus).setAttr k (v.extractLsb' 0 8 &&& 0x77#8), ?_, ?_, fun h => absurd hl h, hattr _ _ _⟩
      · simp only [writeBlock, pmsSetAttr]
        rw [if_pos hl]
      · simp
    · refine ⟨d.pms c.bus, ?_, fun _ h => h, fun _ => rfl, fun h => h⟩
      simp only [writeBlock, pmsSetAttr]
      rw [if_neg hl, hset]
  | pmsLock =>
    refine ⟨_, rfl, ?_, fun _ => rfl, fun h => h⟩
    intro n hn
    simp only [BitVec.getLsbD_or, hn, Bool.true_or]
  | _ => cases hr

/-- No register write changes the fault record (10_state R46, 60_exceptions R136). -/
theorem writeReg_faultRecord (p : Params) (r : Option Reg) (v : Word) (d : Device) :
    (writeReg p r v d).faultRecord = d.faultRecord := by
  rcases r with _ | ⟨c, r⟩ | _ | _ | _ | _ | i <;> try rfl
  simp only [writeReg]
  by_cases hp : isPmsReg r = true
  · obtain ⟨x, hx, _⟩ := writeBlock_pms p c r v d hp
    rw [hx]
    cases c <;> rfl
  · have := CacheOnly.writeBlock p c r v d (by simpa using hp)
    simp [Device.faultRecord, this.faultVaddr, this.faultCode, this.faultContent]

/-- A pinned page is in the captured range of a locked section (45 R119). -/
theorem pinned_iff (p : Params) (c : CacheId) (x : CacheState) (q : Nat) :
    pinned p c x q = true ↔ ∃ k, (x.lock k).ena = true ∧ q ∈ pages p c (x.lock k).range := by
  simp only [pinned, Bool.or_eq_true, Bool.and_eq_true, mem_pages]
  constructor
  · rintro (h | h)
    · exact ⟨.s0, h⟩
    · exact ⟨.s1, h⟩
  · rintro ⟨k, h⟩
    cases k
    · exact .inl h
    · exact .inr h

/-! ## Residency -/

/-- No page left cache c. -/
structure Grows (c : CacheId) (d d' : Device) : Prop where
  keeps : ∀ q, d.residentAt c q = true → d'.residentAt c q = true

theorem Grows.refl (c : CacheId) (d : Device) : Grows c d d := ⟨fun _ h => h⟩

theorem Grows.trans {c : CacheId} {d e f : Device} (h : Grows c d e) (k : Grows c e f) : Grows c d f :=
  ⟨fun q hq => k.keeps q (h.keeps q hq)⟩

theorem Grows.of_resident_eq {c : CacheId} {d e : Device} (h : (e.cache c).resident = (d.cache c).resident) :
    Grows c d e := by
  refine ⟨fun q hq => ?_⟩
  unfold Device.residentAt at *
  rw [h]
  exact hq

theorem Grows.of_cacheOnly {c c' : CacheId} {d e : Device} (h : CacheOnly c d e) (hc : c' ≠ c) : Grows c' d e :=
  .of_resident_eq (by rw [h.other c' hc])

theorem Grows.levelEdge {c : CacheId} (new old : Bool) {on off : Device → Device} (d : Device)
    (hon : Grows c d (on d)) (hoff : Grows c d (off d)) : Grows c d (levelEdge new old on off d) := by
  unfold Sys2Proof.Machine.levelEdge
  split
  · exact .refl ..
  · split
    · exact hon
    · exact hoff

theorem cmdEnable_resident (c : CacheId) (d : Device) :
    ((cmdEnable c d).cache c).resident = (d.cache c).resident := by
  unfold cmdEnable
  split <;> simp

theorem cmdDisable_resident (c : CacheId) (d : Device) :
    ((cmdDisable c d).cache c).resident = (d.cache c).resident := by
  unfold cmdDisable
  split <;> simp

theorem cmdFreeze_resident (c : CacheId) (d : Device) :
    ((cmdFreeze c d).cache c).resident = (d.cache c).resident := by
  unfold cmdFreeze
  split <;> simp

theorem cmdUnfreeze_resident (c : CacheId) (d : Device) :
    ((cmdUnfreeze c d).cache c).resident = (d.cache c).resident := by
  unfold cmdUnfreeze
  split <;> simp

theorem cmdLock_resident (p : Params) (c : CacheId) (s : Sec) (d : Device) :
    ((cmdLock p c s d).cache c).resident = (d.cache c).resident := by
  unfold cmdLock
  dsimp only
  split <;> simp

theorem cmdUnlock_resident (c : CacheId) (s : Sec) (d : Device) :
    ((cmdUnlock c s d).cache c).resident = (d.cache c).resident := by
  simp [cmdUnlock]

theorem cmdArm_resident (p : Params) (c : CacheId) (s : Sec) (d : Device) :
    ((cmdArm p c s d).cache c).resident = (d.cache c).resident := by
  unfold cmdArm
  dsimp only
  split <;> simp

theorem cmdDisarm_resident (c : CacheId) (s : Sec) (d : Device) :
    ((cmdDisarm c s d).cache c).resident = (d.cache c).resident := by
  simp [cmdDisarm]

theorem Grows.cmdPreload (p : Params) (c : CacheId) (d : Device) : Grows c d (cmdPreload p c d) := by
  refine ⟨fun q hq => ?_⟩
  unfold Device.residentAt at *
  unfold Sys2Proof.Machine.cmdPreload
  dsimp only
  split
  · split
    · rw [Device.cache_setCache_same, getLsbD_loadRange, hq, Bool.true_or]
    · simpa using hq
  · simpa using hq

/-- A write to a cache register other than SYNC_CTRL makes no page leave. -/
theorem Grows.writeBlock (p : Params) (c : CacheId) (r : BlockReg) (v : Word) (d : Device)
    (hr : isPmsReg r = false) (hs : r ≠ .syncCtrl) : Grows c d (writeBlock p c r v d) := by
  have hset : ∀ x : CacheState, x.resident = (d.cache c).resident → Grows c d (d.setCache c x) := fun x hx =>
    .of_resident_eq (by simp [hx])
  cases r with
  | ctrl =>
    exact (hset _ (by rfl)).trans
      (.levelEdge _ _ _ (.of_resident_eq (cmdEnable_resident ..)) (.of_resident_eq (cmdDisable_resident ..)))
  | freeze =>
    exact (hset _ (by rfl)).trans
      (.levelEdge _ _ _ (.of_resident_eq (cmdFreeze_resident ..)) (.of_resident_eq (cmdUnfreeze_resident ..)))
  | lockCtrl =>
    exact (Grows.levelEdge _ _ _ (.of_resident_eq (cmdLock_resident ..)) (.of_resident_eq (cmdUnlock_resident ..))).trans
      (.levelEdge _ _ _ (.of_resident_eq (cmdLock_resident ..)) (.of_resident_eq (cmdUnlock_resident ..)))
  | lockAddr s => exact hset _ (by simp)
  | lockSize s => exact hset _ (by simp)
  | preloadCtrl =>
    refine (hset { d.cache c with preloadOrder := v.getLsbD 2 } rfl).trans ?_
    simp only [Sys2Proof.Machine.writeBlock, writePreloadCtrl, trigger]
    split
    · exact .cmdPreload ..
    · exact .refl ..
  | preloadAddr => exact hset _ rfl
  | preloadSize => exact hset _ rfl
  | autoloadCtrl =>
    exact ((hset _ (by rfl)).trans
      (.levelEdge _ _ _ (.of_resident_eq (cmdArm_resident ..)) (.of_resident_eq (cmdDisarm_resident ..)))).trans
      (.levelEdge _ _ _ (.of_resident_eq (cmdArm_resident ..)) (.of_resident_eq (cmdDisarm_resident ..)))
  | autoloadAddr s => exact hset _ (by simp)
  | autoloadSize s => exact hset _ (by simp)
  | syncCtrl => exact absurd rfl hs
  | cntCtrl =>
    simp only [Sys2Proof.Machine.writeBlock, writeCntCtrl, trigger]
    split
    · exact hset _ rfl
    · exact .refl ..
  | acsCnt => exact .refl ..
  | missCnt => exact .refl ..
  | psramMissCnt => exact .refl ..
  | pmsBoundary k => cases hr
  | pmsAttr k => cases hr
  | pmsLock => cases hr

theorem countAccess_resident (c : CacheId) (d : Device) :
    ((countAccess c d).cache c).resident = (d.cache c).resident := by
  simp [countAccess]

theorem record_resident (c : CacheId) (hit : Bool) (st : StoreId) (d : Device) :
    ((record c hit st d).cache c).resident = (d.cache c).resident := by
  cases hit <;> cases c <;> cases st <;>
    simp [record, countAccess, countMiss, countPsramMiss, Device.cache, Device.setCache]

theorem Grows.fillOnMiss (c : CacheId) (q : Nat) (hit : Bool) (d : Device) : Grows c d (fillOnMiss c q hit d) := by
  refine ⟨fun i hi => ?_⟩
  unfold Device.residentAt at *
  unfold Sys2Proof.Machine.fillOnMiss
  split
  · rw [Device.cache_setCache_same, getLsbD_setResident, hi, Bool.true_or]
  · exact hi

theorem Grows.autoloadSection (p : Params) (c : CacheId) (k : Sec) (va : Word) (hit : Bool) (d : Device) :
    Grows c d (autoloadSection p c k va hit d) := by
  refine ⟨fun i hi => ?_⟩
  unfold Device.residentAt at *
  unfold Sys2Proof.Machine.autoloadSection
  dsimp only
  split
  · rw [Device.cache_setCache_same, getLsbD_loadRange, hi, Bool.true_or]
  · exact hi

theorem Grows.account (p : Params) (c : CacheId) (va : Word) (st : StoreId) (d : Device) :
    Grows c d (account p c va st d) :=
  (((Grows.of_resident_eq (record_resident ..)).trans (.fillOnMiss ..)).trans (.autoloadSection ..)).trans
    (.autoloadSection ..)

end Sys2Proof.Machine
end

