-- ==== Sys2Proof/Laws/Bus.lean ====
section
/-! SUPPORT. Laws/Bus.lean: what a bus access can do (`busAccess_cases`), and when it does it (`busAccess_routed`). -/

namespace Sys2Proof.Machine

/-- The window of ICACHE starts at IBUS_BASE, that of DCACHE at DBUS_BASE (00_scope R8). -/
theorem windowBase_eq (p : Params) (c : CacheId) :
    windowBase p c = (if c = .icache then p.ibusBase else p.dbusBase).toNat := by
  cases c <;> rfl

/-- The window of IBUS starts at IBUS_BASE, that of DBUS at DBUS_BASE (00_scope R3, R8). -/
theorem windowBase_bus (p : Params) (b : Bus) :
    windowBase p b.cache = (if b = .ibus then p.ibusBase else p.dbusBase).toNat := by
  cases b <;> rfl

/-- STORE_MAP is the page's bit of the window's vector (42_translation R92, log 14). -/
theorem storeMap_eq_psram {p : Params} {c : CacheId} {i : Nat} :
    storeMap p c i = .psram ↔ (if c = .icache then p.ipsramPages else p.dpsramPages).getLsbD i = true := by
  cases c <;> simp [storeMap]

/-- The sizes of the two stores (00_scope section 4). -/
theorem storeSize_eq (p : Params) (st : StoreId) :
    storeSize p st = if st = .flash then p.flashSize else p.psramSize := by
  cases st <;> rfl

/-- FLASH_CRYPT holds of the offsets in some encrypted range (20_memory R60, log 7). -/
theorem flashCrypted_iff {p : Params} {off : Nat} :
    flashCrypted p off = true ↔ ∃ r ∈ p.flashCrypt, r.1 ≤ off ∧ off < r.1 + r.2 := by
  simp [flashCrypted]

/-- The page of a routed access is one of the 512 (42_translation R90). -/
theorem routed_page {p : Params} {b : Bus} {va : Word} {len : Nat} (h : routed p b va len) :
    windowBase p b.cache ≤ va.toNat ∧ pageIndex p b.cache va.toNat < 512 := by
  obtain ⟨h1, _, h3, h4, _⟩ := h
  refine ⟨h3, ?_⟩
  unfold pageIndex
  have : va.toNat - windowBase p b.cache < 33554432 := by
    have : windowSize = 33554432 := rfl
    omega
  exact Nat.div_lt_of_lt_mul (by simpa [pageSize] using this)

/-- Where a mapped page's address translates to: the store of its page, the page number's offset, reduced modulo the
flash size when the page is flash-backed and the wrap flag is set (42_translation R91, R93). -/
def mappedOffset (p : Params) (c : CacheId) (va : Word) (d : Device) : Nat :=
  if storeMap p c (pageIndex p c va.toNat) = .flash ∧ (d.cache c).wrap = true then
    ((d.entry (pageIndex p c va.toNat)).page.toNat * pageSize + va.toNat % pageSize) % p.flashSize
  else (d.entry (pageIndex p c va.toNat)).page.toNat * pageSize + va.toNat % pageSize

/-- TRANSLATE inside the window (42_translation R91). -/
theorem translate_inside {p : Params} {c : CacheId} {va : Word} {d : Device}
    (h1 : windowBase p c ≤ va.toNat) (h2 : pageIndex p c va.toNat < 512) :
    translate p c va d =
      if (d.entry (pageIndex p c va.toNat)).invalid then .translationFault
      else .at (storeMap p c (pageIndex p c va.toNat)) (mappedOffset p c va d) := by
  unfold translate
  rw [if_neg (by omega), if_neg (by simp only [nEntries]; omega)]
  cases (d.entry (pageIndex p c va.toNat)).invalid
  · simp only [Bool.false_eq_true, if_false]
    unfold mappedOffset
    by_cases hw : storeMap p c (pageIndex p c va.toNat) = .flash ∧ (d.cache c).wrap = true
    · rw [if_pos hw, if_pos hw, hw.1]
    · rw [if_neg hw, if_neg hw]
  · rfl

/-- A translation that yields an offset is of a window address with a valid entry. -/
theorem translate_eq_at {p : Params} {c : CacheId} {va : Word} {d : Device} {st : StoreId} {off : Nat}
    (h : translate p c va d = .at st off) :
    windowBase p c ≤ va.toNat ∧ pageIndex p c va.toNat < 512 ∧
      (d.entry (pageIndex p c va.toNat)).invalid = false ∧
      st = storeMap p c (pageIndex p c va.toNat) ∧ off = mappedOffset p c va d := by
  have h1 : windowBase p c ≤ va.toNat := by
    by_contra hn
    rw [translate, if_pos (by omega)] at h
    cases h
  have h2 : pageIndex p c va.toNat < 512 := by
    by_contra hn
    rw [translate, if_neg (by omega), if_pos (by simp only [nEntries]; omega)] at h
    cases h
  rw [translate_inside h1 h2] at h
  split at h
  · cases h
  · rename_i hi
    injection h with ha hb
    exact ⟨h1, h2, by simpa using hi, ha.symm, hb.symm⟩

/-- A routed access completes with the gates' state (42_translation R95). -/
theorem busAccess_routed {b : Bus} {w : World} {k : AccessClass} {va : Word} {len : Nat} {wdata : List Byte} {s : State}
    (h : routed s.cfg b va len) :
    busAccess b w k va len wdata s = .next (gatedAccess b w k va len wdata s) := by
  obtain ⟨h1, h2, h3, h4, h5⟩ := h
  unfold busAccess
  rw [if_neg (by omega), if_neg (by omega), if_neg (by omega)]

/-- What a bus access can do. -/
theorem busAccess_cases {b : Bus} {w : World} {k : AccessClass} {va : Word} {len : Nat} {wdata : List Byte}
    {s t : State} (h : busAccess b w k va len wdata s = .next t) :
    t = s.commit s.dev .rangeFault ∨
    (routed s.cfg b va len ∧ pmsAllows (s.dev.pms b) w k (pageIndex s.cfg b.cache va.toNat) = false ∧
      t = s.commit (pmsFault b w k va (pageIndex s.cfg b.cache va.toNat) s.dev) .permissionFault) ∨
    (routed s.cfg b va len ∧ pmsAllows (s.dev.pms b) w k (pageIndex s.cfg b.cache va.toNat) = true ∧
      (s.dev.entry (pageIndex s.cfg b.cache va.toNat)).invalid = true ∧
      t = s.commit (mmuFault b.cache va (pageIndex s.cfg b.cache va.toNat) s.dev) .translationFault) ∨
    (∃ st off, routed s.cfg b va len ∧
      pmsAllows (s.dev.pms b) w k (pageIndex s.cfg b.cache va.toNat) = true ∧
      translate s.cfg b.cache va s.dev = .at st off ∧
      ((∃ a, cacheRejects (s.dev.cache b.cache) k = some a ∧ t = s.commit s.dev a) ∨
       (cacheRejects (s.dev.cache b.cache) k = none ∧
        t = completeAccess b.cache k va len wdata st off s))) := by
  unfold busAccess at h
  split at h
  · cases h
  · rename_i h1
    split at h
    · injection h with h
      exact .inl h.symm
    · rename_i h2
      split at h
      · cases h
      · rename_i h3
        injection h with h
        have hr : routed s.cfg b va len := by
          refine ⟨?_, ?_, ?_, ?_, ?_⟩ <;> omega
        obtain ⟨hb, hq⟩ := routed_page hr
        unfold gatedAccess at h
        dsimp only at h
        split at h
        · rename_i hp
          refine .inr (.inr ?_)
          rw [translate_inside hb hq] at h
          by_cases hi : (s.dev.entry (pageIndex s.cfg b.cache va.toNat)).invalid = true
          · rw [if_pos hi] at h
            exact .inl ⟨hr, hp, hi, h.symm⟩
          · rw [if_neg hi] at h
            refine .inr ⟨_, _, hr, hp, by rw [translate_inside hb hq, if_neg hi], ?_⟩
            dsimp only at h
            cases hc : cacheRejects (s.dev.cache b.cache) k with
            | some a =>
              rw [hc] at h
              exact .inl ⟨a, rfl, h.symm⟩
            | none =>
              rw [hc] at h
              exact .inr ⟨rfl, h.symm⟩
        · rename_i hp
          exact .inr (.inl ⟨hr, by simpa using hp, h.symm⟩)

/-- The answers of the cache state controller are never Ok (42_translation R95). -/
theorem cacheRejects_ne_ok {x : CacheState} {k : AccessClass} {a : Answer} (h : cacheRejects x k = some a)
    (data : List Byte) : a ≠ .ok data := by
  unfold cacheRejects at h
  split at h
  · injection h with h; subst h; simp
  · split at h
    · injection h with h; subst h; simp
    · split at h
      · injection h with h; subst h; simp
      · cases h

/-- When the cache state controller lets an access through (44 R114, R116; 42 R95). -/
theorem cacheRejects_eq_none {x : CacheState} {k : AccessClass} :
    cacheRejects x k = none ↔
      x.shut = false ∧ x.cstate ≠ .disabled ∧ ¬ (x.cstate = .frozen ∧ k = .write ∧ x.freezeMode = true) := by
  unfold cacheRejects
  cases x.shut <;> by_cases h1 : x.cstate = .disabled <;>
    by_cases h2 : x.cstate = .frozen ∧ k = .write ∧ x.freezeMode = true <;> simp [h1, h2]

/-- A completed access accounts for itself in the device, whatever its class. -/
theorem completeAccess_dev (c : CacheId) (k : AccessClass) (va : Word) (len : Nat) (wdata : List Byte) (st : StoreId)
    (off : Nat) (s : State) :
    (completeAccess c k va len wdata st off s).dev = account s.cfg c va st s.dev := by
  cases k <;> rfl

/-- A completed access answers Ok. -/
theorem completeAccess_answer (c : CacheId) (k : AccessClass) (va : Word) (len : Nat) (wdata : List Byte)
    (st : StoreId) (off : Nat) (s : State) :
    ∃ data, (completeAccess c k va len wdata st off s).answer = .ok data ∧ (k = .write → data = []) := by
  cases k
  · exact ⟨_, rfl, by simp⟩
  · exact ⟨_, rfl, by simp⟩
  · exact ⟨_, rfl, by simp⟩

/-- Stage 4 of a write changes the stores alone. -/
theorem writeData_fields (x : CacheState) (st : StoreId) (off : Nat) (wdata : List Byte) (s : State) :
    (writeData x st off wdata s).cfg = s.cfg ∧ (writeData x st off wdata s).program = s.program ∧
    (writeData x st off wdata s).position = s.position ∧ (writeData x st off wdata s).draws = s.draws := by
  unfold writeData
  split <;> simp

/-- A completed access changes no parameter, no program, no position and no draw. -/
theorem completeAccess_fields (c : CacheId) (k : AccessClass) (va : Word) (len : Nat) (wdata : List Byte)
    (st : StoreId) (off : Nat) (s : State) :
    (completeAccess c k va len wdata st off s).cfg = s.cfg ∧
    (completeAccess c k va len wdata st off s).program = s.program ∧
    (completeAccess c k va len wdata st off s).position = s.position ∧
    (completeAccess c k va len wdata st off s).draws = s.draws := by
  cases k
  · exact ⟨rfl, rfl, rfl, rfl⟩
  · exact writeData_fields (s.dev.cache c) st off wdata s
  · exact ⟨rfl, rfl, rfl, rfl⟩

/-- A completed read or fetch changes the device and the answer alone (20_memory R57). -/
theorem completeAccess_read {c : CacheId} {k : AccessClass} (hk : k ≠ .write) (va : Word) (len : Nat)
    (wdata : List Byte) (st : StoreId) (off : Nat) (s : State) :
    completeAccess c k va len wdata st off s =
      s.commit (account s.cfg c va st s.dev) (.ok (readData st off len s)) := by
  cases k
  · rfl
  · exact absurd rfl hk
  · rfl

/-- A completed read or fetch changes no store. -/
theorem completeAccess_stores {c : CacheId} {k : AccessClass} (hk : k ≠ .write) (va : Word) (len : Nat)
    (wdata : List Byte) (st : StoreId) (off : Nat) (s : State) :
    (completeAccess c k va len wdata st off s).flash = s.flash ∧
    (completeAccess c k va len wdata st off s).psram = s.psram := by
  rw [completeAccess_read hk]
  exact ⟨rfl, rfl⟩

/-- The bytes a read answers: the store's, where the range is inside it and the offset is not encrypted. -/
theorem readData_store {st : StoreId} {off len : Nat} {s : State} (hc : ¬ (st = .flash ∧ flashCrypted s.cfg off = true))
    (hin : off + len ≤ storeSize s.cfg st) :
    readData st off len s = Memory.readBytes (s.store st) off len := by
  unfold readData memRead
  rw [if_neg hc, if_pos hin]

/-- The bytes a read answers at an encrypted flash offset: the decryption unit's, and none is drawn (20_memory R60). -/
theorem readData_encrypted {st : StoreId} {off len : Nat} {s : State}
    (hc : st = .flash ∧ flashCrypted s.cfg off = true) : readData st off len s = decrypt off len s := by
  unfold readData
  rw [if_pos hc]

/-- The bytes a read answers, not encrypted, from a range outside the store: the drawn ones (20_memory R59). -/
theorem readData_drawn {st : StoreId} {off len : Nat} {s : State} (hc : ¬ (st = .flash ∧ flashCrypted s.cfg off = true))
    (hout : storeSize s.cfg st < off + len) :
    readData st off len s = drawnBytes st off len s := by
  unfold readData memRead
  rw [if_neg hc, if_neg (by omega)]

/-- A read answers `len` bytes in every case. -/
theorem readData_length (st : StoreId) (off len : Nat) (s : State) : (readData st off len s).length = len := by
  unfold readData
  split <;> simp [decrypt]

/-- Two states that agree in the stores, the parameters and the draw give a read the same bytes (20_memory R57). -/
theorem readData_congr {s t : State} (hf : t.flash = s.flash) (hp : t.psram = s.psram) (hc : t.cfg = s.cfg)
    (hd : t.draws = s.draws) (st : StoreId) (off len : Nat) : readData st off len t = readData st off len s := by
  have hs : t.store st = s.store st := by cases st <;> assumption
  unfold readData memRead drawnBytes decrypt
  rw [hf, hc, hd, hs]

/-- A completed write: the stores after it. -/
theorem completeAccess_write_byteAt {c : CacheId} {va : Word} {len : Nat} {wdata : List Byte} {st : StoreId}
    {off : Nat} {s : State} (st' : StoreId) (x : Nat) :
    (completeAccess c .write va len wdata st off s).byteAt st' x =
      (writeData (s.dev.cache c) st off wdata s).byteAt st' x := by
  simp [completeAccess]

/-- The bytes a bus operation carries: a write its own, a read or fetch none (30_encoding R68). -/
def accessData (k : AccessClass) (wdata : List Byte) : List Byte :=
  match k with
  | .read => []
  | .write => wdata
  | .fetch => []

/-- The bus operation of a bus and a class is its bus access (42 R97 to R102). -/
theorem exec_busRow (b : Bus) (k : AccessClass) (w : World) (va : Word) (len : Nat) (wdata : List Byte) (s : State) :
    exec (busRow b k w va len wdata) s =
      busAccess b w k va (accessLen k len wdata) (accessData k wdata) s := by
  cases b <;> cases k <;> rfl

/-- A routed access that every gate lets through is the completed access (42 R95). -/
theorem exec_completed {s : State} {b : Bus} {k : AccessClass} {w : World} {va : Word} {len : Nat}
    {wdata : List Byte} {st : StoreId} {off : Nat} (hr : routed s.cfg b va (accessLen k len wdata))
    (hp : pmsAllows (s.dev.pms b) w k (pageIndex s.cfg b.cache va.toNat) = true)
    (ht : translate s.cfg b.cache va s.dev = .at st off) (hc : cacheRejects (s.dev.cache b.cache) k = none) :
    exec (busRow b k w va len wdata) s =
      .next (completeAccess b.cache k va (accessLen k len wdata) (accessData k wdata) st off s) := by
  rw [exec_busRow, busAccess_routed hr]
  unfold gatedAccess
  simp only [hp, if_true, ht, hc]

/-- An access that answered Ok is the completed access. -/
theorem bus_completed {s t : State} {b : Bus} {k : AccessClass} {w : World} {va : Word} {len : Nat}
    {wdata data : List Byte} (h : exec (busRow b k w va len wdata) s = .next t) (ha : t.answer = .ok data) :
    ∃ st off, routed s.cfg b va (accessLen k len wdata) ∧
      pmsAllows (s.dev.pms b) w k (pageIndex s.cfg b.cache va.toNat) = true ∧
      translate s.cfg b.cache va s.dev = .at st off ∧ cacheRejects (s.dev.cache b.cache) k = none ∧
      t = completeAccess b.cache k va (accessLen k len wdata) (accessData k wdata) st off s := by
  rw [exec_busRow] at h
  rcases busAccess_cases h with rfl | ⟨_, _, rfl⟩ | ⟨_, _, _, rfl⟩ | ⟨st, off, h1, h2, h3, ⟨a, h4, rfl⟩ | ⟨h4, rfl⟩⟩
  · cases ha
  · cases ha
  · cases ha
  · exact absurd ha (cacheRejects_ne_ok h4 data)
  · exact ⟨st, off, h1, h2, h3, h4, rfl⟩

/-! ## What a completed access leaves in its cache and the status -/

/-- SAT_INC on the counter's number (46 R129). -/
theorem satInc_toNat (x : Word) : (satInc x).toNat = min (2 ^ 32 - 1) (x.toNat + 1) := by
  unfold satInc cntMax
  by_cases h : x = 0xFFFFFFFF#32
  · subst h; rfl
  · rw [if_neg h]
    have : x.toNat ≠ 4294967295 := fun e => h (BitVec.eq_of_toNat_eq e)
    have := x.isLt
    simp
    omega

/-- RECORD on the three counters of its cache (46 R130). -/
theorem record_counts (c : CacheId) (hit : Bool) (st : StoreId) (d : Device) :
    ((record c hit st d).cache c).acsCnt = satInc (d.cache c).acsCnt ∧
    ((record c hit st d).cache c).missCnt =
      (if hit = false ∧ (c = .icache ∨ st = .flash) then satInc (d.cache c).missCnt else (d.cache c).missCnt) ∧
    ((record c hit st d).cache c).psramMissCnt =
      (if hit = false ∧ c = .dcache ∧ st = .psram then satInc (d.cache c).psramMissCnt
       else (d.cache c).psramMissCnt) := by
  cases hit <;> cases c <;> cases st <;>
    simp [record, countAccess, countMiss, countPsramMiss, Device.cache, Device.setCache]

/-- SAT_INC on the status bits (46 R129). -/
theorem getLsbD_satStatus (x : Word) (m n : Nat) (d : Device) (hm : m < 11) :
    (satStatus x m d).intSt.getLsbD n = (d.intSt.getLsbD n || decide (n = m ∧ x = cntMax)) := by
  rw [satStatus_intSt]
  by_cases h : x = cntMax
  · simp [h, getLsbD_status _ _ _ hm]
  · simp [h]

/-- Autoload and fill change nothing but the residency of their cache. -/
theorem residency_only (p : Params) (c : CacheId) (va : Word) (q : Nat) (hit : Bool) (d : Device) :
    autoloadEval p c va hit (fillOnMiss c q hit d) =
      d.setCache c { d.cache c with
        resident := ((autoloadEval p c va hit (fillOnMiss c q hit d)).cache c).resident } := by
  have h1 : ∀ d : Device, fillOnMiss c q hit d =
      d.setCache c { d.cache c with resident := ((fillOnMiss c q hit d).cache c).resident } := by
    intro d
    unfold fillOnMiss
    split
    · simp
    · cases c <;> rfl
  have h2 : ∀ (k : Sec) (d : Device), autoloadSection p c k va hit d =
      d.setCache c { d.cache c with resident := ((autoloadSection p c k va hit d).cache c).resident } := by
    intro k d
    unfold autoloadSection
    dsimp only
    split
    · simp
    · cases c <;> rfl
  unfold autoloadEval
  rw [h2 .s1, h2 .s0, h1]
  cases c <;> rfl

/-- What a completed access leaves: what RECORD leaves, and its residency. -/
theorem account_eq (p : Params) (c : CacheId) (va : Word) (st : StoreId) (d : Device) (hit : Bool)
    (hh : hit = (d.cache c).resident.getLsbD (pageIndex p c va.toNat)) :
    account p c va st d = (record c hit st d).setCache c
      { (record c hit st d).cache c with resident := ((account p c va st d).cache c).resident } := by
  subst hh
  exact residency_only ..

/-! ## What the answer of a read depends on -/

/-- Two devices whose gates treat every access of cache c's bus alike: they agree in the MMU table, the permission tables
and the flags of the cache. -/
structure GatesAlike (c : CacheId) (d d' : Device) : Prop where
  mmu : d'.mmu = d.mmu
  ipms : d'.ipms = d.ipms
  dpms : d'.dpms = d.dpms
  cstate : (d'.cache c).cstate = (d.cache c).cstate
  shut : (d'.cache c).shut = (d.cache c).shut
  wrap : (d'.cache c).wrap = (d.cache c).wrap
  freezeMode : (d'.cache c).freezeMode = (d.cache c).freezeMode

theorem GatesAlike.trans {c : CacheId} {d e f : Device} (g : GatesAlike c d e) (h : GatesAlike c e f) :
    GatesAlike c d f :=
  ⟨h.mmu.trans g.mmu, h.ipms.trans g.ipms, h.dpms.trans g.dpms, h.cstate.trans g.cstate, h.shut.trans g.shut,
    h.wrap.trans g.wrap, h.freezeMode.trans g.freezeMode⟩

/-- The residency is no gate. -/
theorem GatesAlike.resident (c : CacheId) (d : Device) (r : BitVec 512) :
    GatesAlike c d (d.setCache c { d.cache c with resident := r }) := by
  cases c <;> exact ⟨rfl, rfl, rfl, rfl, rfl, rfl, rfl⟩

/-- Counting leaves the gates as they are. -/
theorem GatesAlike.record (c : CacheId) (hit : Bool) (st : StoreId) (d : Device) :
    GatesAlike c d (record c hit st d) := by
  constructor <;> cases hit <;> cases c <;> cases st <;>
    simp [Machine.record, countAccess, countMiss, countPsramMiss, Device.cache, Device.setCache]

/-- A completed access leaves the gates as they are. -/
theorem GatesAlike.account (p : Params) (c : CacheId) (va : Word) (st : StoreId) (d : Device) :
    GatesAlike c d (account p c va st d) := by
  rw [account_eq p c va st d _ rfl]
  exact (GatesAlike.record ..).trans (.resident ..)

/-- Alike gates translate alike. -/
theorem GatesAlike.translate {c : CacheId} {d d' : Device} (g : GatesAlike c d d') (p : Params) (va : Word) :
    translate p c va d' = translate p c va d := by
  unfold Machine.translate Device.entry
  rw [g.mmu, g.wrap]

/-- Alike gates allow alike. -/
theorem GatesAlike.pms {c : CacheId} {d d' : Device} (g : GatesAlike c d d') (b : Bus) : d'.pms b = d.pms b := by
  cases b
  · exact g.ipms
  · exact g.dpms

/-- Alike gates turn away alike. -/
theorem GatesAlike.cacheRejects {c : CacheId} {d d' : Device} (g : GatesAlike c d d') (k : AccessClass) :
    cacheRejects (d'.cache c) k = cacheRejects (d.cache c) k := by
  unfold Machine.cacheRejects
  rw [g.shut, g.cstate, g.freezeMode]

/-- A read or fetch leaves the gates, the stores and the draw as they are (20_memory R57). -/
theorem busAccess_read_leaves {b : Bus} {w : World} {k : AccessClass} {va : Word} {len : Nat} {wdata : List Byte}
    {s t : State} (hk : k ≠ .write) (h : busAccess b w k va len wdata s = .next t) :
    GatesAlike b.cache s.dev t.dev ∧ t.flash = s.flash ∧ t.psram = s.psram ∧ t.cfg = s.cfg ∧
      t.program = s.program ∧ t.position = s.position ∧ t.draws = s.draws := by
  have keep : ∀ a, GatesAlike b.cache s.dev (s.commit s.dev a).dev := fun _ => ⟨rfl, rfl, rfl, rfl, rfl, rfl, rfl⟩
  rcases busAccess_cases h with rfl | ⟨_, _, rfl⟩ | ⟨_, _, _, rfl⟩ | ⟨st, off, _, _, _, ⟨a, _, rfl⟩ | ⟨_, rfl⟩⟩
  · exact ⟨keep _, rfl, rfl, rfl, rfl, rfl, rfl⟩
  · refine ⟨?_, rfl, rfl, rfl, rfl, rfl, rfl⟩
    cases b <;> exact ⟨rfl, rfl, rfl, rfl, rfl, rfl, rfl⟩
  · refine ⟨?_, rfl, rfl, rfl, rfl, rfl, rfl⟩
    cases b <;> exact ⟨rfl, rfl, rfl, rfl, rfl, rfl, rfl⟩
  · exact ⟨keep _, rfl, rfl, rfl, rfl, rfl, rfl⟩
  · rw [completeAccess_read hk]
    exact ⟨GatesAlike.account .., rfl, rfl, rfl, rfl, rfl, rfl⟩

end Sys2Proof.Machine
end

