-- ==== Sys2Proof/Laws/PerInstr.lean ====
section
/-! SUPPORT. Laws/PerInstr.lean: two statements about every instruction as syntax, one lemma for each constructor:
`TableRow` (its transaction lies in its row of spec/opcode_table.json, 30_encoding R76) and `PortRules` (its register
transaction is 32 bits wide at a multiple of 4, 20_memory R54). -/

namespace Sys2Proof.Laws

open Sys2Proof.Machine

/-- The key of a register write against a row's pattern and mask, by halves. -/
theorem inRow_wr {off : BitVec 12} {v : Word} {p m : Nat}
    (h : ((1#1 ++ off) &&& BitVec.ofNat 13 (m / 2 ^ 32)) = BitVec.ofNat 13 (p / 2 ^ 32))
    (l : (v &&& BitVec.ofNat 32 m) = BitVec.ofNat 32 p) (hm : m < 2 ^ 45) (hp : p < 2 ^ 45) :
    (Transaction.wr 32 off v).inRow ⟨.reg, p, m⟩ = true := by
  have split45 : ∀ n : Nat, n < 2 ^ 45 → n = (BitVec.ofNat 13 (n / 2 ^ 32) ++ BitVec.ofNat 32 n).toNat := by
    intro n hn
    rw [BitVec.toNat_append, ← Nat.shiftLeft_add_eq_or_of_lt (BitVec.isLt _), Nat.shiftLeft_eq, BitVec.toNat_ofNat,
      BitVec.toNat_ofNat]
    omega
  have key : ((1#1 ++ off ++ v).toNat &&& m) = p := by
    rw [split45 m hm, ← BitVec.toNat_and, BitVec.and_append, h, l, ← split45 p hp]
  unfold Transaction.inRow Transaction.format Transaction.key
  dsimp only
  rw [key]
  simp

/-- A transaction lies in a row of its format whose pattern its masked key is. -/
theorem inRow_of {t : Transaction} {r : Row} (hf : t.format = r.format) (hk : t.key &&& r.mask = r.pattern) :
    t.inRow r = true := by
  unfold Transaction.inRow
  rw [hf, hk]
  simp

theorem and_one_of_set {v : Word} (h : v.getLsbD 0 = true) : (v &&& 1#32) = 1#32 := by
  apply BitVec.eq_of_getLsbD_eq
  intro i _
  rw [BitVec.getLsbD_and, BitVec.getLsbD_one]
  by_cases hi : i = 0 <;> simp_all

theorem and_one_of_clear {v : Word} (h : v.getLsbD 0 = false) : (v &&& 1#32) = 0#32 := by
  apply BitVec.eq_of_getLsbD_eq
  intro i _
  rw [BitVec.getLsbD_and, BitVec.getLsbD_one]
  by_cases hi : i = 0 <;> simp_all

theorem getLsbD_four (i : Nat) (hi : i < 32) : (4#32).getLsbD i = decide (i = 2) := by
  have : ∀ k : Fin 32, (4#32).getLsbD k.val = decide (k.val = 2) := by decide
  exact this ⟨i, hi⟩

theorem and_four_of_set {v : Word} (h : v.getLsbD 2 = true) : (v &&& 4#32) = 4#32 := by
  apply BitVec.eq_of_getLsbD_eq
  intro i hi
  rw [BitVec.getLsbD_and, getLsbD_four i hi]
  by_cases hi : i = 2 <;> simp_all

theorem and_four_of_clear {v : Word} (h : v.getLsbD 2 = false) : (v &&& 4#32) = 0#32 := by
  apply BitVec.eq_of_getLsbD_eq
  intro i hi
  rw [BitVec.getLsbD_and, getLsbD_four i hi]
  by_cases hi : i = 2 <;> simp_all

/-! ## TableRow -/

/-- The transaction of a well-formed instruction lies in the instruction's row of the opcode table (30_encoding R76). -/
def TableRow.Statement (i : Instr) : Prop :=
  WellFormed i = true → (encode i).inRow (rowOf i) = true

theorem TableRow.regRead (off : BitVec 12) : TableRow.Statement (.regRead off) :=
  fun _ => inRow_of rfl (by clear * - off; revert off; decide +kernel)

theorem TableRow.regWrite (off : BitVec 12) (v : Word) : TableRow.Statement (.regWrite off v) :=
  fun _ => inRow_wr (by clear * - off; revert off; decide +kernel) (by simp) (by decide) (by decide)

theorem TableRow.mmuRead (i : BitVec 9) : TableRow.Statement (.mmuRead i) :=
  fun _ => inRow_of rfl (by clear * - i; revert i; decide +kernel)

theorem TableRow.mmuWrite (i : BitVec 9) (v : Word) : TableRow.Statement (.mmuWrite i v) :=
  fun _ => inRow_wr (by clear * - i; revert i; decide +kernel) (by simp) (by decide) (by decide)

theorem TableRow.mmuGet (index : Nat) : TableRow.Statement (.mmuGet index) :=
  fun _ => inRow_of rfl (show (0 &&& 1 : Nat) = 0 by decide)

theorem TableRow.mmuSet (index : Nat) (page : BitVec 8) (invalid : Bool) : TableRow.Statement (.mmuSet index page invalid) :=
  fun _ => inRow_of rfl (show (1 &&& 1 : Nat) = 1 by decide)

theorem TableRow.dcacheEnable (v : Word) : TableRow.Statement (.dcacheEnable v) :=
  fun h => inRow_wr (by decide) (and_one_of_set h) (by decide) (by decide)

theorem TableRow.dcacheDisable (v : Word) : TableRow.Statement (.dcacheDisable v) :=
  fun h => inRow_wr (by decide) (and_one_of_clear ((Bool.not_eq_true' _).mp h)) (by decide) (by decide)

theorem TableRow.dcacheShut (v : Word) : TableRow.Statement (.dcacheShut v) :=
  fun _ => inRow_wr (by decide) (by simp) (by decide) (by decide)

theorem TableRow.dcacheWrap (v : Word) : TableRow.Statement (.dcacheWrap v) :=
  fun _ => inRow_wr (by decide) (by simp) (by decide) (by decide)

theorem TableRow.dcacheFreeze (v : Word) : TableRow.Statement (.dcacheFreeze v) :=
  fun h => inRow_wr (by decide) (and_one_of_set h) (by decide) (by decide)

theorem TableRow.dcacheUnfreeze (v : Word) : TableRow.Statement (.dcacheUnfreeze v) :=
  fun h => inRow_wr (by decide) (and_one_of_clear ((Bool.not_eq_true' _).mp h)) (by decide) (by decide)

theorem TableRow.dcacheFreezeMode (v : Word) : TableRow.Statement (.dcacheFreezeMode v) :=
  fun _ => inRow_wr (by decide) (by simp) (by decide) (by decide)

theorem TableRow.dcacheLock0 (v : Word) : TableRow.Statement (.dcacheLock0 v) :=
  fun h => inRow_wr (by decide) (and_one_of_set h) (by decide) (by decide)

theorem TableRow.dcacheUnlock0 (v : Word) : TableRow.Statement (.dcacheUnlock0 v) :=
  fun h => inRow_wr (by decide) (and_one_of_clear ((Bool.not_eq_true' _).mp h)) (by decide) (by decide)

theorem TableRow.dcacheLock1 (v : Word) : TableRow.Statement (.dcacheLock1 v) :=
  fun h => inRow_wr (by decide) (and_four_of_set h) (by decide) (by decide)

theorem TableRow.dcacheUnlock1 (v : Word) : TableRow.Statement (.dcacheUnlock1 v) :=
  fun h => inRow_wr (by decide) (and_four_of_clear ((Bool.not_eq_true' _).mp h)) (by decide) (by decide)

theorem TableRow.dcacheLock0AddrWrite (v : Word) : TableRow.Statement (.dcacheLock0AddrWrite v) :=
  fun _ => inRow_wr (by decide) (by simp) (by decide) (by decide)

theorem TableRow.dcacheLock0SizeWrite (v : Word) : TableRow.Statement (.dcacheLock0SizeWrite v) :=
  fun _ => inRow_wr (by decide) (by simp) (by decide) (by decide)

theorem TableRow.dcacheLock1AddrWrite (v : Word) : TableRow.Statement (.dcacheLock1AddrWrite v) :=
  fun _ => inRow_wr (by decide) (by simp) (by decide) (by decide)

theorem TableRow.dcacheLock1SizeWrite (v : Word) : TableRow.Statement (.dcacheLock1SizeWrite v) :=
  fun _ => inRow_wr (by decide) (by simp) (by decide) (by decide)

theorem TableRow.dcachePreload (v : Word) : TableRow.Statement (.dcachePreload v) :=
  fun h => inRow_wr (by decide) (and_one_of_set h) (by decide) (by decide)

theorem TableRow.dcachePreloadAddrWrite (v : Word) : TableRow.Statement (.dcachePreloadAddrWrite v) :=
  fun _ => inRow_wr (by decide) (by simp) (by decide) (by decide)

theorem TableRow.dcachePreloadSizeWrite (v : Word) : TableRow.Statement (.dcachePreloadSizeWrite v) :=
  fun _ => inRow_wr (by decide) (by simp) (by decide) (by decide)

theorem TableRow.dcacheAutoloadArm0 (v : Word) : TableRow.Statement (.dcacheAutoloadArm0 v) :=
  fun h => inRow_wr (by decide) (and_one_of_set h) (by decide) (by decide)

theorem TableRow.dcacheAutoloadDisarm0 (v : Word) : TableRow.Statement (.dcacheAutoloadDisarm0 v) :=
  fun h => inRow_wr (by decide) (and_one_of_clear ((Bool.not_eq_true' _).mp h)) (by decide) (by decide)

theorem TableRow.dcacheAutoloadArm1 (v : Word) : TableRow.Statement (.dcacheAutoloadArm1 v) :=
  fun h => inRow_wr (by decide) (and_four_of_set h) (by decide) (by decide)

theorem TableRow.dcacheAutoloadDisarm1 (v : Word) : TableRow.Statement (.dcacheAutoloadDisarm1 v) :=
  fun h => inRow_wr (by decide) (and_four_of_clear ((Bool.not_eq_true' _).mp h)) (by decide) (by decide)

theorem TableRow.dcacheAutoloadSct0AddrWrite (v : Word) : TableRow.Statement (.dcacheAutoloadSct0AddrWrite v) :=
  fun _ => inRow_wr (by decide) (by simp) (by decide) (by decide)

theorem TableRow.dcacheAutoloadSct0SizeWrite (v : Word) : TableRow.Statement (.dcacheAutoloadSct0SizeWrite v) :=
  fun _ => inRow_wr (by decide) (by simp) (by decide) (by decide)

theorem TableRow.dcacheAutoloadSct1AddrWrite (v : Word) : TableRow.Statement (.dcacheAutoloadSct1AddrWrite v) :=
  fun _ => inRow_wr (by decide) (by simp) (by decide) (by decide)

theorem TableRow.dcacheAutoloadSct1SizeWrite (v : Word) : TableRow.Statement (.dcacheAutoloadSct1SizeWrite v) :=
  fun _ => inRow_wr (by decide) (by simp) (by decide) (by decide)

theorem TableRow.dcacheInvalidate (v : Word) : TableRow.Statement (.dcacheInvalidate v) :=
  fun h => inRow_wr (by decide) (and_one_of_set h) (by decide) (by decide)

theorem TableRow.dcacheCntClr (v : Word) : TableRow.Statement (.dcacheCntClr v) :=
  fun h => inRow_wr (by decide) (and_one_of_set h) (by decide) (by decide)

theorem TableRow.dcacheAcsCntRead : TableRow.Statement .dcacheAcsCntRead :=
  fun _ => rfl

theorem TableRow.dcacheMissCntRead : TableRow.Statement .dcacheMissCntRead :=
  fun _ => rfl

theorem TableRow.dcachePsramMissCntRead : TableRow.Statement .dcachePsramMissCntRead :=
  fun _ => rfl

theorem TableRow.dbusPmsSetBoundary0 (v : Word) : TableRow.Statement (.dbusPmsSetBoundary0 v) :=
  fun _ => inRow_wr (by decide) (by simp) (by decide) (by decide)

theorem TableRow.dbusPmsSetBoundary1 (v : Word) : TableRow.Statement (.dbusPmsSetBoundary1 v) :=
  fun _ => inRow_wr (by decide) (by simp) (by decide) (by decide)

theorem TableRow.dbusPmsSetBoundary2 (v : Word) : TableRow.Statement (.dbusPmsSetBoundary2 v) :=
  fun _ => inRow_wr (by decide) (by simp) (by decide) (by decide)

theorem TableRow.dbusPmsSetAttr0 (v : Word) : TableRow.Statement (.dbusPmsSetAttr0 v) :=
  fun _ => inRow_wr (by decide) (by simp) (by decide) (by decide)

theorem TableRow.dbusPmsSetAttr1 (v : Word) : TableRow.Statement (.dbusPmsSetAttr1 v) :=
  fun _ => inRow_wr (by decide) (by simp) (by decide) (by decide)

theorem TableRow.dbusPmsSetAttr2 (v : Word) : TableRow.Statement (.dbusPmsSetAttr2 v) :=
  fun _ => inRow_wr (by decide) (by simp) (by decide) (by decide)

theorem TableRow.dbusPmsLock (v : Word) : TableRow.Statement (.dbusPmsLock v) :=
  fun _ => inRow_wr (by decide) (by simp) (by decide) (by decide)

theorem TableRow.icacheEnable (v : Word) : TableRow.Statement (.icacheEnable v) :=
  fun h => inRow_wr (by decide) (and_one_of_set h) (by decide) (by decide)

theorem TableRow.icacheDisable (v : Word) : TableRow.Statement (.icacheDisable v) :=
  fun h => inRow_wr (by decide) (and_one_of_clear ((Bool.not_eq_true' _).mp h)) (by decide) (by decide)

theorem TableRow.icacheShut (v : Word) : TableRow.Statement (.icacheShut v) :=
  fun _ => inRow_wr (by decide) (by simp) (by decide) (by decide)

theorem TableRow.icacheWrap (v : Word) : TableRow.Statement (.icacheWrap v) :=
  fun _ => inRow_wr (by decide) (by simp) (by decide) (by decide)

theorem TableRow.icacheFreeze (v : Word) : TableRow.Statement (.icacheFreeze v) :=
  fun h => inRow_wr (by decide) (and_one_of_set h) (by decide) (by decide)

theorem TableRow.icacheUnfreeze (v : Word) : TableRow.Statement (.icacheUnfreeze v) :=
  fun h => inRow_wr (by decide) (and_one_of_clear ((Bool.not_eq_true' _).mp h)) (by decide) (by decide)

theorem TableRow.icacheFreezeMode (v : Word) : TableRow.Statement (.icacheFreezeMode v) :=
  fun _ => inRow_wr (by decide) (by simp) (by decide) (by decide)

theorem TableRow.icacheLock0 (v : Word) : TableRow.Statement (.icacheLock0 v) :=
  fun h => inRow_wr (by decide) (and_one_of_set h) (by decide) (by decide)

theorem TableRow.icacheUnlock0 (v : Word) : TableRow.Statement (.icacheUnlock0 v) :=
  fun h => inRow_wr (by decide) (and_one_of_clear ((Bool.not_eq_true' _).mp h)) (by decide) (by decide)

theorem TableRow.icacheLock1 (v : Word) : TableRow.Statement (.icacheLock1 v) :=
  fun h => inRow_wr (by decide) (and_four_of_set h) (by decide) (by decide)

theorem TableRow.icacheUnlock1 (v : Word) : TableRow.Statement (.icacheUnlock1 v) :=
  fun h => inRow_wr (by decide) (and_four_of_clear ((Bool.not_eq_true' _).mp h)) (by decide) (by decide)

theorem TableRow.icacheLock0AddrWrite (v : Word) : TableRow.Statement (.icacheLock0AddrWrite v) :=
  fun _ => inRow_wr (by decide) (by simp) (by decide) (by decide)

theorem TableRow.icacheLock0SizeWrite (v : Word) : TableRow.Statement (.icacheLock0SizeWrite v) :=
  fun _ => inRow_wr (by decide) (by simp) (by decide) (by decide)

theorem TableRow.icacheLock1AddrWrite (v : Word) : TableRow.Statement (.icacheLock1AddrWrite v) :=
  fun _ => inRow_wr (by decide) (by simp) (by decide) (by decide)

theorem TableRow.icacheLock1SizeWrite (v : Word) : TableRow.Statement (.icacheLock1SizeWrite v) :=
  fun _ => inRow_wr (by decide) (by simp) (by decide) (by decide)

theorem TableRow.icachePreload (v : Word) : TableRow.Statement (.icachePreload v) :=
  fun h => inRow_wr (by decide) (and_one_of_set h) (by decide) (by decide)

theorem TableRow.icachePreloadAddrWrite (v : Word) : TableRow.Statement (.icachePreloadAddrWrite v) :=
  fun _ => inRow_wr (by decide) (by simp) (by decide) (by decide)

theorem TableRow.icachePreloadSizeWrite (v : Word) : TableRow.Statement (.icachePreloadSizeWrite v) :=
  fun _ => inRow_wr (by decide) (by simp) (by decide) (by decide)

theorem TableRow.icacheAutoloadArm0 (v : Word) : TableRow.Statement (.icacheAutoloadArm0 v) :=
  fun h => inRow_wr (by decide) (and_one_of_set h) (by decide) (by decide)

theorem TableRow.icacheAutoloadDisarm0 (v : Word) : TableRow.Statement (.icacheAutoloadDisarm0 v) :=
  fun h => inRow_wr (by decide) (and_one_of_clear ((Bool.not_eq_true' _).mp h)) (by decide) (by decide)

theorem TableRow.icacheAutoloadArm1 (v : Word) : TableRow.Statement (.icacheAutoloadArm1 v) :=
  fun h => inRow_wr (by decide) (and_four_of_set h) (by decide) (by decide)

theorem TableRow.icacheAutoloadDisarm1 (v : Word) : TableRow.Statement (.icacheAutoloadDisarm1 v) :=
  fun h => inRow_wr (by decide) (and_four_of_clear ((Bool.not_eq_true' _).mp h)) (by decide) (by decide)

theorem TableRow.icacheAutoloadSct0AddrWrite (v : Word) : TableRow.Statement (.icacheAutoloadSct0AddrWrite v) :=
  fun _ => inRow_wr (by decide) (by simp) (by decide) (by decide)

theorem TableRow.icacheAutoloadSct0SizeWrite (v : Word) : TableRow.Statement (.icacheAutoloadSct0SizeWrite v) :=
  fun _ => inRow_wr (by decide) (by simp) (by decide) (by decide)

theorem TableRow.icacheAutoloadSct1AddrWrite (v : Word) : TableRow.Statement (.icacheAutoloadSct1AddrWrite v) :=
  fun _ => inRow_wr (by decide) (by simp) (by decide) (by decide)

theorem TableRow.icacheAutoloadSct1SizeWrite (v : Word) : TableRow.Statement (.icacheAutoloadSct1SizeWrite v) :=
  fun _ => inRow_wr (by decide) (by simp) (by decide) (by decide)

theorem TableRow.icacheInvalidate (v : Word) : TableRow.Statement (.icacheInvalidate v) :=
  fun h => inRow_wr (by decide) (and_one_of_set h) (by decide) (by decide)

theorem TableRow.icacheCntClr (v : Word) : TableRow.Statement (.icacheCntClr v) :=
  fun h => inRow_wr (by decide) (and_one_of_set h) (by decide) (by decide)

theorem TableRow.icacheAcsCntRead : TableRow.Statement .icacheAcsCntRead :=
  fun _ => rfl

theorem TableRow.icacheMissCntRead : TableRow.Statement .icacheMissCntRead :=
  fun _ => rfl

theorem TableRow.icachePsramMissCntRead : TableRow.Statement .icachePsramMissCntRead :=
  fun _ => rfl

theorem TableRow.ibusPmsSetBoundary0 (v : Word) : TableRow.Statement (.ibusPmsSetBoundary0 v) :=
  fun _ => inRow_wr (by decide) (by simp) (by decide) (by decide)

theorem TableRow.ibusPmsSetBoundary1 (v : Word) : TableRow.Statement (.ibusPmsSetBoundary1 v) :=
  fun _ => inRow_wr (by decide) (by simp) (by decide) (by decide)

theorem TableRow.ibusPmsSetBoundary2 (v : Word) : TableRow.Statement (.ibusPmsSetBoundary2 v) :=
  fun _ => inRow_wr (by decide) (by simp) (by decide) (by decide)

theorem TableRow.ibusPmsSetAttr0 (v : Word) : TableRow.Statement (.ibusPmsSetAttr0 v) :=
  fun _ => inRow_wr (by decide) (by simp) (by decide) (by decide)

theorem TableRow.ibusPmsSetAttr1 (v : Word) : TableRow.Statement (.ibusPmsSetAttr1 v) :=
  fun _ => inRow_wr (by decide) (by simp) (by decide) (by decide)

theorem TableRow.ibusPmsSetAttr2 (v : Word) : TableRow.Statement (.ibusPmsSetAttr2 v) :=
  fun _ => inRow_wr (by decide) (by simp) (by decide) (by decide)

theorem TableRow.ibusPmsLock (v : Word) : TableRow.Statement (.ibusPmsLock v) :=
  fun _ => inRow_wr (by decide) (by simp) (by decide) (by decide)

theorem TableRow.intStRead : TableRow.Statement .intStRead :=
  fun _ => rfl

theorem TableRow.intClr (v : Word) : TableRow.Statement (.intClr v) :=
  fun _ => inRow_wr (by decide) (by simp) (by decide) (by decide)

theorem TableRow.intEnaRead : TableRow.Statement .intEnaRead :=
  fun _ => rfl

theorem TableRow.intEna (v : Word) : TableRow.Statement (.intEna v) :=
  fun _ => inRow_wr (by decide) (by simp) (by decide) (by decide)

theorem TableRow.faultVaddrRead : TableRow.Statement .faultVaddrRead :=
  fun _ => rfl

theorem TableRow.faultInfoRead : TableRow.Statement .faultInfoRead :=
  fun _ => rfl

theorem TableRow.ibusRead (w : World) (va : Word) (len : Nat) : TableRow.Statement (.ibusRead w va len) :=
  fun _ => inRow_of rfl (show ((attr4 .ibus w .read).toNat &&& 0xb) = 0x0 by cases w <;> decide)

theorem TableRow.ibusWrite (w : World) (va : Word) (wdata : List Byte) : TableRow.Statement (.ibusWrite w va wdata) :=
  fun _ => inRow_of rfl (show ((attr4 .ibus w .write).toNat &&& 0xb) = 0x1 by cases w <;> decide)

theorem TableRow.ibusFetch (w : World) (va : Word) (len : Nat) : TableRow.Statement (.ibusFetch w va len) :=
  fun _ => inRow_of rfl (show ((attr4 .ibus w .fetch).toNat &&& 0xb) = 0x2 by cases w <;> decide)

theorem TableRow.dbusRead (w : World) (va : Word) (len : Nat) : TableRow.Statement (.dbusRead w va len) :=
  fun _ => inRow_of rfl (show ((attr4 .dbus w .read).toNat &&& 0xb) = 0x8 by cases w <;> decide)

theorem TableRow.dbusWrite (w : World) (va : Word) (wdata : List Byte) : TableRow.Statement (.dbusWrite w va wdata) :=
  fun _ => inRow_of rfl (show ((attr4 .dbus w .write).toNat &&& 0xb) = 0x9 by cases w <;> decide)

theorem TableRow.dbusFetch (w : World) (va : Word) (len : Nat) : TableRow.Statement (.dbusFetch w va len) :=
  fun _ => inRow_of rfl (show ((attr4 .dbus w .fetch).toNat &&& 0xb) = 0xa by cases w <;> decide)

theorem TableRow.evict (c : CacheId) (p : BitVec 9) : TableRow.Statement (.evict c p) :=
  fun _ => inRow_of rfl (show (0 &&& 0 : Nat) = 0 by decide)

theorem TableRow.reset : TableRow.Statement .reset :=
  fun _ => rfl

/-! ## PortRules -/

/-- The register transaction of a well-formed instruction is 32 bits wide at a multiple of 4 (20_memory R54). -/
def PortRules.Statement (i : Instr) : Prop :=
  WellFormed i = true → ∀ (width : Nat) (off : BitVec 12),
    encode i = .rd width off ∨ (∃ v, encode i = .wr width off v) → width = 32 ∧ alignedOffset off = true

theorem portRules_rd {i : Instr} {off : BitVec 12} (he : encode i = .rd 32 off)
    (ha : WellFormed i = true → alignedOffset off = true) : PortRules.Statement i := by
  intro hw width off' h
  rcases h with h | ⟨v, h⟩
  · rw [he] at h
    injection h with h1 h2
    exact ⟨h1.symm, h2 ▸ ha hw⟩
  · rw [he] at h
    cases h

theorem portRules_wr {i : Instr} {off : BitVec 12} {v : Word} (he : encode i = .wr 32 off v)
    (ha : WellFormed i = true → alignedOffset off = true) : PortRules.Statement i := by
  intro hw width off' h
  rcases h with h | ⟨v', h⟩
  · rw [he] at h
    cases h
  · rw [he] at h
    injection h with h1 h2 _
    exact ⟨h1.symm, h2 ▸ ha hw⟩

theorem portRules_other {i : Instr} (h1 : (encode i).format ≠ .reg) : PortRules.Statement i := by
  intro _ width off h
  rcases h with h | ⟨v, h⟩
  · rw [h] at h1
    exact absurd rfl h1
  · rw [h] at h1
    exact absurd rfl h1

theorem PortRules.regRead (off : BitVec 12) : PortRules.Statement (.regRead off) :=
  portRules_rd rfl (fun h => h)

theorem PortRules.regWrite (off : BitVec 12) (v : Word) : PortRules.Statement (.regWrite off v) :=
  portRules_wr rfl (fun h => h)

theorem PortRules.mmuRead (i : BitVec 9) : PortRules.Statement (.mmuRead i) :=
  portRules_rd rfl (fun _ => aligned_mmuOffset i)

theorem PortRules.mmuWrite (i : BitVec 9) (v : Word) : PortRules.Statement (.mmuWrite i v) :=
  portRules_wr rfl (fun _ => aligned_mmuOffset i)

theorem PortRules.mmuGet (index : Nat) : PortRules.Statement (.mmuGet index) :=
  portRules_other (fun h => nomatch h)

theorem PortRules.mmuSet (index : Nat) (page : BitVec 8) (invalid : Bool) : PortRules.Statement (.mmuSet index page invalid) :=
  portRules_other (fun h => nomatch h)

theorem PortRules.dcacheEnable (v : Word) : PortRules.Statement (.dcacheEnable v) :=
  portRules_wr rfl (fun _ => rfl)

theorem PortRules.dcacheDisable (v : Word) : PortRules.Statement (.dcacheDisable v) :=
  portRules_wr rfl (fun _ => rfl)

theorem PortRules.dcacheShut (v : Word) : PortRules.Statement (.dcacheShut v) :=
  portRules_wr rfl (fun _ => rfl)

theorem PortRules.dcacheWrap (v : Word) : PortRules.Statement (.dcacheWrap v) :=
  portRules_wr rfl (fun _ => rfl)

theorem PortRules.dcacheFreeze (v : Word) : PortRules.Statement (.dcacheFreeze v) :=
  portRules_wr rfl (fun _ => rfl)

theorem PortRules.dcacheUnfreeze (v : Word) : PortRules.Statement (.dcacheUnfreeze v) :=
  portRules_wr rfl (fun _ => rfl)

theorem PortRules.dcacheFreezeMode (v : Word) : PortRules.Statement (.dcacheFreezeMode v) :=
  portRules_wr rfl (fun _ => rfl)

theorem PortRules.dcacheLock0 (v : Word) : PortRules.Statement (.dcacheLock0 v) :=
  portRules_wr rfl (fun _ => rfl)

theorem PortRules.dcacheUnlock0 (v : Word) : PortRules.Statement (.dcacheUnlock0 v) :=
  portRules_wr rfl (fun _ => rfl)

theorem PortRules.dcacheLock1 (v : Word) : PortRules.Statement (.dcacheLock1 v) :=
  portRules_wr rfl (fun _ => rfl)

theorem PortRules.dcacheUnlock1 (v : Word) : PortRules.Statement (.dcacheUnlock1 v) :=
  portRules_wr rfl (fun _ => rfl)

theorem PortRules.dcacheLock0AddrWrite (v : Word) : PortRules.Statement (.dcacheLock0AddrWrite v) :=
  portRules_wr rfl (fun _ => rfl)

theorem PortRules.dcacheLock0SizeWrite (v : Word) : PortRules.Statement (.dcacheLock0SizeWrite v) :=
  portRules_wr rfl (fun _ => rfl)

theorem PortRules.dcacheLock1AddrWrite (v : Word) : PortRules.Statement (.dcacheLock1AddrWrite v) :=
  portRules_wr rfl (fun _ => rfl)

theorem PortRules.dcacheLock1SizeWrite (v : Word) : PortRules.Statement (.dcacheLock1SizeWrite v) :=
  portRules_wr rfl (fun _ => rfl)

theorem PortRules.dcachePreload (v : Word) : PortRules.Statement (.dcachePreload v) :=
  portRules_wr rfl (fun _ => rfl)

theorem PortRules.dcachePreloadAddrWrite (v : Word) : PortRules.Statement (.dcachePreloadAddrWrite v) :=
  portRules_wr rfl (fun _ => rfl)

theorem PortRules.dcachePreloadSizeWrite (v : Word) : PortRules.Statement (.dcachePreloadSizeWrite v) :=
  portRules_wr rfl (fun _ => rfl)

theorem PortRules.dcacheAutoloadArm0 (v : Word) : PortRules.Statement (.dcacheAutoloadArm0 v) :=
  portRules_wr rfl (fun _ => rfl)

theorem PortRules.dcacheAutoloadDisarm0 (v : Word) : PortRules.Statement (.dcacheAutoloadDisarm0 v) :=
  portRules_wr rfl (fun _ => rfl)

theorem PortRules.dcacheAutoloadArm1 (v : Word) : PortRules.Statement (.dcacheAutoloadArm1 v) :=
  portRules_wr rfl (fun _ => rfl)

theorem PortRules.dcacheAutoloadDisarm1 (v : Word) : PortRules.Statement (.dcacheAutoloadDisarm1 v) :=
  portRules_wr rfl (fun _ => rfl)

theorem PortRules.dcacheAutoloadSct0AddrWrite (v : Word) : PortRules.Statement (.dcacheAutoloadSct0AddrWrite v) :=
  portRules_wr rfl (fun _ => rfl)

theorem PortRules.dcacheAutoloadSct0SizeWrite (v : Word) : PortRules.Statement (.dcacheAutoloadSct0SizeWrite v) :=
  portRules_wr rfl (fun _ => rfl)

theorem PortRules.dcacheAutoloadSct1AddrWrite (v : Word) : PortRules.Statement (.dcacheAutoloadSct1AddrWrite v) :=
  portRules_wr rfl (fun _ => rfl)

theorem PortRules.dcacheAutoloadSct1SizeWrite (v : Word) : PortRules.Statement (.dcacheAutoloadSct1SizeWrite v) :=
  portRules_wr rfl (fun _ => rfl)

theorem PortRules.dcacheInvalidate (v : Word) : PortRules.Statement (.dcacheInvalidate v) :=
  portRules_wr rfl (fun _ => rfl)

theorem PortRules.dcacheCntClr (v : Word) : PortRules.Statement (.dcacheCntClr v) :=
  portRules_wr rfl (fun _ => rfl)

theorem PortRules.dcacheAcsCntRead : PortRules.Statement .dcacheAcsCntRead :=
  portRules_rd rfl (fun _ => rfl)

theorem PortRules.dcacheMissCntRead : PortRules.Statement .dcacheMissCntRead :=
  portRules_rd rfl (fun _ => rfl)

theorem PortRules.dcachePsramMissCntRead : PortRules.Statement .dcachePsramMissCntRead :=
  portRules_rd rfl (fun _ => rfl)

theorem PortRules.dbusPmsSetBoundary0 (v : Word) : PortRules.Statement (.dbusPmsSetBoundary0 v) :=
  portRules_wr rfl (fun _ => rfl)

theorem PortRules.dbusPmsSetBoundary1 (v : Word) : PortRules.Statement (.dbusPmsSetBoundary1 v) :=
  portRules_wr rfl (fun _ => rfl)

theorem PortRules.dbusPmsSetBoundary2 (v : Word) : PortRules.Statement (.dbusPmsSetBoundary2 v) :=
  portRules_wr rfl (fun _ => rfl)

theorem PortRules.dbusPmsSetAttr0 (v : Word) : PortRules.Statement (.dbusPmsSetAttr0 v) :=
  portRules_wr rfl (fun _ => rfl)

theorem PortRules.dbusPmsSetAttr1 (v : Word) : PortRules.Statement (.dbusPmsSetAttr1 v) :=
  portRules_wr rfl (fun _ => rfl)

theorem PortRules.dbusPmsSetAttr2 (v : Word) : PortRules.Statement (.dbusPmsSetAttr2 v) :=
  portRules_wr rfl (fun _ => rfl)

theorem PortRules.dbusPmsLock (v : Word) : PortRules.Statement (.dbusPmsLock v) :=
  portRules_wr rfl (fun _ => rfl)

theorem PortRules.icacheEnable (v : Word) : PortRules.Statement (.icacheEnable v) :=
  portRules_wr rfl (fun _ => rfl)

theorem PortRules.icacheDisable (v : Word) : PortRules.Statement (.icacheDisable v) :=
  portRules_wr rfl (fun _ => rfl)

theorem PortRules.icacheShut (v : Word) : PortRules.Statement (.icacheShut v) :=
  portRules_wr rfl (fun _ => rfl)

theorem PortRules.icacheWrap (v : Word) : PortRules.Statement (.icacheWrap v) :=
  portRules_wr rfl (fun _ => rfl)

theorem PortRules.icacheFreeze (v : Word) : PortRules.Statement (.icacheFreeze v) :=
  portRules_wr rfl (fun _ => rfl)

theorem PortRules.icacheUnfreeze (v : Word) : PortRules.Statement (.icacheUnfreeze v) :=
  portRules_wr rfl (fun _ => rfl)

theorem PortRules.icacheFreezeMode (v : Word) : PortRules.Statement (.icacheFreezeMode v) :=
  portRules_wr rfl (fun _ => rfl)

theorem PortRules.icacheLock0 (v : Word) : PortRules.Statement (.icacheLock0 v) :=
  portRules_wr rfl (fun _ => rfl)

theorem PortRules.icacheUnlock0 (v : Word) : PortRules.Statement (.icacheUnlock0 v) :=
  portRules_wr rfl (fun _ => rfl)

theorem PortRules.icacheLock1 (v : Word) : PortRules.Statement (.icacheLock1 v) :=
  portRules_wr rfl (fun _ => rfl)

theorem PortRules.icacheUnlock1 (v : Word) : PortRules.Statement (.icacheUnlock1 v) :=
  portRules_wr rfl (fun _ => rfl)

theorem PortRules.icacheLock0AddrWrite (v : Word) : PortRules.Statement (.icacheLock0AddrWrite v) :=
  portRules_wr rfl (fun _ => rfl)

theorem PortRules.icacheLock0SizeWrite (v : Word) : PortRules.Statement (.icacheLock0SizeWrite v) :=
  portRules_wr rfl (fun _ => rfl)

theorem PortRules.icacheLock1AddrWrite (v : Word) : PortRules.Statement (.icacheLock1AddrWrite v) :=
  portRules_wr rfl (fun _ => rfl)

theorem PortRules.icacheLock1SizeWrite (v : Word) : PortRules.Statement (.icacheLock1SizeWrite v) :=
  portRules_wr rfl (fun _ => rfl)

theorem PortRules.icachePreload (v : Word) : PortRules.Statement (.icachePreload v) :=
  portRules_wr rfl (fun _ => rfl)

theorem PortRules.icachePreloadAddrWrite (v : Word) : PortRules.Statement (.icachePreloadAddrWrite v) :=
  portRules_wr rfl (fun _ => rfl)

theorem PortRules.icachePreloadSizeWrite (v : Word) : PortRules.Statement (.icachePreloadSizeWrite v) :=
  portRules_wr rfl (fun _ => rfl)

theorem PortRules.icacheAutoloadArm0 (v : Word) : PortRules.Statement (.icacheAutoloadArm0 v) :=
  portRules_wr rfl (fun _ => rfl)

theorem PortRules.icacheAutoloadDisarm0 (v : Word) : PortRules.Statement (.icacheAutoloadDisarm0 v) :=
  portRules_wr rfl (fun _ => rfl)

theorem PortRules.icacheAutoloadArm1 (v : Word) : PortRules.Statement (.icacheAutoloadArm1 v) :=
  portRules_wr rfl (fun _ => rfl)

theorem PortRules.icacheAutoloadDisarm1 (v : Word) : PortRules.Statement (.icacheAutoloadDisarm1 v) :=
  portRules_wr rfl (fun _ => rfl)

theorem PortRules.icacheAutoloadSct0AddrWrite (v : Word) : PortRules.Statement (.icacheAutoloadSct0AddrWrite v) :=
  portRules_wr rfl (fun _ => rfl)

theorem PortRules.icacheAutoloadSct0SizeWrite (v : Word) : PortRules.Statement (.icacheAutoloadSct0SizeWrite v) :=
  portRules_wr rfl (fun _ => rfl)

theorem PortRules.icacheAutoloadSct1AddrWrite (v : Word) : PortRules.Statement (.icacheAutoloadSct1AddrWrite v) :=
  portRules_wr rfl (fun _ => rfl)

theorem PortRules.icacheAutoloadSct1SizeWrite (v : Word) : PortRules.Statement (.icacheAutoloadSct1SizeWrite v) :=
  portRules_wr rfl (fun _ => rfl)

theorem PortRules.icacheInvalidate (v : Word) : PortRules.Statement (.icacheInvalidate v) :=
  portRules_wr rfl (fun _ => rfl)

theorem PortRules.icacheCntClr (v : Word) : PortRules.Statement (.icacheCntClr v) :=
  portRules_wr rfl (fun _ => rfl)

theorem PortRules.icacheAcsCntRead : PortRules.Statement .icacheAcsCntRead :=
  portRules_rd rfl (fun _ => rfl)

theorem PortRules.icacheMissCntRead : PortRules.Statement .icacheMissCntRead :=
  portRules_rd rfl (fun _ => rfl)

theorem PortRules.icachePsramMissCntRead : PortRules.Statement .icachePsramMissCntRead :=
  portRules_rd rfl (fun _ => rfl)

theorem PortRules.ibusPmsSetBoundary0 (v : Word) : PortRules.Statement (.ibusPmsSetBoundary0 v) :=
  portRules_wr rfl (fun _ => rfl)

theorem PortRules.ibusPmsSetBoundary1 (v : Word) : PortRules.Statement (.ibusPmsSetBoundary1 v) :=
  portRules_wr rfl (fun _ => rfl)

theorem PortRules.ibusPmsSetBoundary2 (v : Word) : PortRules.Statement (.ibusPmsSetBoundary2 v) :=
  portRules_wr rfl (fun _ => rfl)

theorem PortRules.ibusPmsSetAttr0 (v : Word) : PortRules.Statement (.ibusPmsSetAttr0 v) :=
  portRules_wr rfl (fun _ => rfl)

theorem PortRules.ibusPmsSetAttr1 (v : Word) : PortRules.Statement (.ibusPmsSetAttr1 v) :=
  portRules_wr rfl (fun _ => rfl)

theorem PortRules.ibusPmsSetAttr2 (v : Word) : PortRules.Statement (.ibusPmsSetAttr2 v) :=
  portRules_wr rfl (fun _ => rfl)

theorem PortRules.ibusPmsLock (v : Word) : PortRules.Statement (.ibusPmsLock v) :=
  portRules_wr rfl (fun _ => rfl)

theorem PortRules.intStRead : PortRules.Statement .intStRead :=
  portRules_rd rfl (fun _ => rfl)

theorem PortRules.intClr (v : Word) : PortRules.Statement (.intClr v) :=
  portRules_wr rfl (fun _ => rfl)

theorem PortRules.intEnaRead : PortRules.Statement .intEnaRead :=
  portRules_rd rfl (fun _ => rfl)

theorem PortRules.intEna (v : Word) : PortRules.Statement (.intEna v) :=
  portRules_wr rfl (fun _ => rfl)

theorem PortRules.faultVaddrRead : PortRules.Statement .faultVaddrRead :=
  portRules_rd rfl (fun _ => rfl)

theorem PortRules.faultInfoRead : PortRules.Statement .faultInfoRead :=
  portRules_rd rfl (fun _ => rfl)

theorem PortRules.ibusRead (w : World) (va : Word) (len : Nat) : PortRules.Statement (.ibusRead w va len) :=
  portRules_other (fun h => nomatch h)

theorem PortRules.ibusWrite (w : World) (va : Word) (wdata : List Byte) : PortRules.Statement (.ibusWrite w va wdata) :=
  portRules_other (fun h => nomatch h)

theorem PortRules.ibusFetch (w : World) (va : Word) (len : Nat) : PortRules.Statement (.ibusFetch w va len) :=
  portRules_other (fun h => nomatch h)

theorem PortRules.dbusRead (w : World) (va : Word) (len : Nat) : PortRules.Statement (.dbusRead w va len) :=
  portRules_other (fun h => nomatch h)

theorem PortRules.dbusWrite (w : World) (va : Word) (wdata : List Byte) : PortRules.Statement (.dbusWrite w va wdata) :=
  portRules_other (fun h => nomatch h)

theorem PortRules.dbusFetch (w : World) (va : Word) (len : Nat) : PortRules.Statement (.dbusFetch w va len) :=
  portRules_other (fun h => nomatch h)

theorem PortRules.evict (c : CacheId) (p : BitVec 9) : PortRules.Statement (.evict c p) :=
  portRules_other (fun h => nomatch h)

theorem PortRules.reset : PortRules.Statement .reset :=
  portRules_other (fun h => nomatch h)

end Sys2Proof.Laws
end

