-- ==== Sys2Proof/Tests/Slice0.lean ====
section
/-! SUPPORT. Tests/Slice0.lean: the model's own tests. Decoding: one word of spec/opcode_table.json written out for every
constructor. Steps: results of 95_test_vectors (the vector's number stands in each comment). Witnesses: a concrete
state and operands that meet the hypotheses of each statement. -/

set_option Elab.async false

namespace Sys2Proof.Tests

open Sys2Proof.Machine

/-! ## Ill-formed terms are refused -/

theorem test_wellFormed_refuses_unaligned_offsets :
    WellFormed (.regRead 0x002#12) = false ∧ WellFormed (.regRead 0x001#12) = false ∧
    WellFormed (.regWrite 0x102#12 0#32) = false ∧ WellFormed (.regWrite 0x7FD#12 0#32) = false := by decide

theorem test_wellFormed_refuses_dcache_rows :
    WellFormed (.dcacheEnable 0xFFFFFFFE#32) = false ∧
    WellFormed (.dcacheDisable 0x1#32) = false ∧
    WellFormed (.dcacheFreeze 0xFFFFFFFE#32) = false ∧
    WellFormed (.dcacheUnfreeze 0x1#32) = false ∧
    WellFormed (.dcacheLock0 0xFFFFFFFE#32) = false ∧
    WellFormed (.dcacheUnlock0 0x1#32) = false ∧
    WellFormed (.dcacheLock1 0xFFFFFFFB#32) = false ∧
    WellFormed (.dcacheUnlock1 0x4#32) = false ∧
    WellFormed (.dcachePreload 0xFFFFFFFE#32) = false ∧
    WellFormed (.dcacheAutoloadArm0 0xFFFFFFFE#32) = false ∧
    WellFormed (.dcacheAutoloadDisarm0 0x1#32) = false ∧
    WellFormed (.dcacheAutoloadArm1 0xFFFFFFFB#32) = false ∧
    WellFormed (.dcacheAutoloadDisarm1 0x4#32) = false ∧
    WellFormed (.dcacheInvalidate 0xFFFFFFFE#32) = false ∧
    WellFormed (.dcacheCntClr 0xFFFFFFFE#32) = false := by decide

theorem test_wellFormed_refuses_icache_rows :
    WellFormed (.icacheEnable 0xFFFFFFFE#32) = false ∧
    WellFormed (.icacheDisable 0x1#32) = false ∧
    WellFormed (.icacheFreeze 0xFFFFFFFE#32) = false ∧
    WellFormed (.icacheUnfreeze 0x1#32) = false ∧
    WellFormed (.icacheLock0 0xFFFFFFFE#32) = false ∧
    WellFormed (.icacheUnlock0 0x1#32) = false ∧
    WellFormed (.icacheLock1 0xFFFFFFFB#32) = false ∧
    WellFormed (.icacheUnlock1 0x4#32) = false ∧
    WellFormed (.icachePreload 0xFFFFFFFE#32) = false ∧
    WellFormed (.icacheAutoloadArm0 0xFFFFFFFE#32) = false ∧
    WellFormed (.icacheAutoloadDisarm0 0x1#32) = false ∧
    WellFormed (.icacheAutoloadArm1 0xFFFFFFFB#32) = false ∧
    WellFormed (.icacheAutoloadDisarm1 0x4#32) = false ∧
    WellFormed (.icacheInvalidate 0xFFFFFFFE#32) = false ∧
    WellFormed (.icacheCntClr 0xFFFFFFFE#32) = false := by decide

/-! ## Every constructor's decoding, on a word written out from its row of the table -/

theorem test_decode_cache_control :
    decodeTableWord 48 0x100000000001 = some (.dcacheEnable 0x00000001#32) ∧
    decodeTableWord 48 0x1000FFFFFFF8 = some (.dcacheDisable 0xFFFFFFF8#32) ∧
    decodeTableWord 48 0x100000000002 = some (.dcacheShut 0x00000002#32) ∧
    decodeTableWord 48 0x100000000004 = some (.dcacheWrap 0x00000004#32) ∧
    decodeTableWord 48 0x100400000001 = some (.dcacheFreeze 0x00000001#32) ∧
    decodeTableWord 48 0x100400000000 = some (.dcacheUnfreeze 0x00000000#32) ∧
    decodeTableWord 48 0x100400000002 = some (.dcacheFreezeMode 0x00000002#32) ∧
    decodeTableWord 48 0x108000000001 = some (.icacheEnable 0x00000001#32) ∧
    decodeTableWord 48 0x1080FFFFFFF8 = some (.icacheDisable 0xFFFFFFF8#32) ∧
    decodeTableWord 48 0x108000000002 = some (.icacheShut 0x00000002#32) ∧
    decodeTableWord 48 0x108000000004 = some (.icacheWrap 0x00000004#32) ∧
    decodeTableWord 48 0x108400000001 = some (.icacheFreeze 0x00000001#32) ∧
    decodeTableWord 48 0x108400000000 = some (.icacheUnfreeze 0x00000000#32) ∧
    decodeTableWord 48 0x108400000002 = some (.icacheFreezeMode 0x00000002#32) := by and_intros <;> rfl

theorem test_decode_engine_1 :
    decodeTableWord 48 0x100800000001 = some (.dcacheLock0 0x00000001#32) ∧
    decodeTableWord 48 0x100800000000 = some (.dcacheUnlock0 0x00000000#32) ∧
    decodeTableWord 48 0x100800000004 = some (.dcacheLock1 0x00000004#32) ∧
    decodeTableWord 48 0x100800000008 = some (.dcacheUnlock1 0x00000008#32) ∧
    decodeTableWord 48 0x100C8000A5C3 = some (.dcacheLock0AddrWrite 0x8000A5C3#32) ∧
    decodeTableWord 48 0x10108000A5C3 = some (.dcacheLock0SizeWrite 0x8000A5C3#32) ∧
    decodeTableWord 48 0x10148000A5C3 = some (.dcacheLock1AddrWrite 0x8000A5C3#32) ∧
    decodeTableWord 48 0x10188000A5C3 = some (.dcacheLock1SizeWrite 0x8000A5C3#32) ∧
    decodeTableWord 48 0x101C00000001 = some (.dcachePreload 0x00000001#32) ∧
    decodeTableWord 48 0x10208000A5C3 = some (.dcachePreloadAddrWrite 0x8000A5C3#32) ∧
    decodeTableWord 48 0x10248000A5C3 = some (.dcachePreloadSizeWrite 0x8000A5C3#32) ∧
    decodeTableWord 48 0x102800000011 = some (.dcacheAutoloadArm0 0x00000011#32) ∧
    decodeTableWord 48 0x102800000000 = some (.dcacheAutoloadDisarm0 0x00000000#32) ∧
    decodeTableWord 48 0x102800000004 = some (.dcacheAutoloadArm1 0x00000004#32) ∧
    decodeTableWord 48 0x102800000008 = some (.dcacheAutoloadDisarm1 0x00000008#32) ∧
    decodeTableWord 48 0x102C8000A5C3 = some (.dcacheAutoloadSct0AddrWrite 0x8000A5C3#32) ∧
    decodeTableWord 48 0x10308000A5C3 = some (.dcacheAutoloadSct0SizeWrite 0x8000A5C3#32) ∧
    decodeTableWord 48 0x10348000A5C3 = some (.dcacheAutoloadSct1AddrWrite 0x8000A5C3#32) ∧
    decodeTableWord 48 0x10388000A5C3 = some (.dcacheAutoloadSct1SizeWrite 0x8000A5C3#32) ∧
    decodeTableWord 48 0x103C00000001 = some (.dcacheInvalidate 0x00000001#32) ∧
    decodeTableWord 48 0x108800000001 = some (.icacheLock0 0x00000001#32) ∧
    decodeTableWord 48 0x108800000000 = some (.icacheUnlock0 0x00000000#32) ∧
    decodeTableWord 48 0x108800000004 = some (.icacheLock1 0x00000004#32) ∧
    decodeTableWord 48 0x108800000008 = some (.icacheUnlock1 0x00000008#32) := by and_intros <;> rfl

theorem test_decode_engine_2 :
    decodeTableWord 48 0x108C8000A5C3 = some (.icacheLock0AddrWrite 0x8000A5C3#32) ∧
    decodeTableWord 48 0x10908000A5C3 = some (.icacheLock0SizeWrite 0x8000A5C3#32) ∧
    decodeTableWord 48 0x10948000A5C3 = some (.icacheLock1AddrWrite 0x8000A5C3#32) ∧
    decodeTableWord 48 0x10988000A5C3 = some (.icacheLock1SizeWrite 0x8000A5C3#32) ∧
    decodeTableWord 48 0x109C00000001 = some (.icachePreload 0x00000001#32) ∧
    decodeTableWord 48 0x10A08000A5C3 = some (.icachePreloadAddrWrite 0x8000A5C3#32) ∧
    decodeTableWord 48 0x10A48000A5C3 = some (.icachePreloadSizeWrite 0x8000A5C3#32) ∧
    decodeTableWord 48 0x10A800000011 = some (.icacheAutoloadArm0 0x00000011#32) ∧
    decodeTableWord 48 0x10A800000000 = some (.icacheAutoloadDisarm0 0x00000000#32) ∧
    decodeTableWord 48 0x10A800000004 = some (.icacheAutoloadArm1 0x00000004#32) ∧
    decodeTableWord 48 0x10A800000008 = some (.icacheAutoloadDisarm1 0x00000008#32) ∧
    decodeTableWord 48 0x10AC8000A5C3 = some (.icacheAutoloadSct0AddrWrite 0x8000A5C3#32) ∧
    decodeTableWord 48 0x10B08000A5C3 = some (.icacheAutoloadSct0SizeWrite 0x8000A5C3#32) ∧
    decodeTableWord 48 0x10B48000A5C3 = some (.icacheAutoloadSct1AddrWrite 0x8000A5C3#32) ∧
    decodeTableWord 48 0x10B88000A5C3 = some (.icacheAutoloadSct1SizeWrite 0x8000A5C3#32) ∧
    decodeTableWord 48 0x10BC00000001 = some (.icacheInvalidate 0x00000001#32) := by and_intros <;> rfl

theorem test_decode_counters :
    decodeTableWord 48 0x104000000001 = some (.dcacheCntClr 0x00000001#32) ∧
    decodeTableWord 48 0x004400000000 = some .dcacheAcsCntRead ∧
    decodeTableWord 48 0x004800000000 = some .dcacheMissCntRead ∧
    decodeTableWord 48 0x004C00000000 = some .dcachePsramMissCntRead ∧
    decodeTableWord 48 0x10C000000001 = some (.icacheCntClr 0x00000001#32) ∧
    decodeTableWord 48 0x00C400000000 = some .icacheAcsCntRead ∧
    decodeTableWord 48 0x00C800000000 = some .icacheMissCntRead ∧
    decodeTableWord 48 0x00CC00000000 = some .icachePsramMissCntRead := by and_intros <;> rfl

theorem test_decode_permission :
    decodeTableWord 48 0x10508000A5C3 = some (.dbusPmsSetBoundary0 0x8000A5C3#32) ∧
    decodeTableWord 48 0x10548000A5C3 = some (.dbusPmsSetBoundary1 0x8000A5C3#32) ∧
    decodeTableWord 48 0x10588000A5C3 = some (.dbusPmsSetBoundary2 0x8000A5C3#32) ∧
    decodeTableWord 48 0x105C8000A5C3 = some (.dbusPmsSetAttr0 0x8000A5C3#32) ∧
    decodeTableWord 48 0x10608000A5C3 = some (.dbusPmsSetAttr1 0x8000A5C3#32) ∧
    decodeTableWord 48 0x10648000A5C3 = some (.dbusPmsSetAttr2 0x8000A5C3#32) ∧
    decodeTableWord 48 0x10688000A5C3 = some (.dbusPmsLock 0x8000A5C3#32) ∧
    decodeTableWord 48 0x10D08000A5C3 = some (.ibusPmsSetBoundary0 0x8000A5C3#32) ∧
    decodeTableWord 48 0x10D48000A5C3 = some (.ibusPmsSetBoundary1 0x8000A5C3#32) ∧
    decodeTableWord 48 0x10D88000A5C3 = some (.ibusPmsSetBoundary2 0x8000A5C3#32) ∧
    decodeTableWord 48 0x10DC8000A5C3 = some (.ibusPmsSetAttr0 0x8000A5C3#32) ∧
    decodeTableWord 48 0x10E08000A5C3 = some (.ibusPmsSetAttr1 0x8000A5C3#32) ∧
    decodeTableWord 48 0x10E48000A5C3 = some (.ibusPmsSetAttr2 0x8000A5C3#32) ∧
    decodeTableWord 48 0x10E88000A5C3 = some (.ibusPmsLock 0x8000A5C3#32) := by and_intros <;> rfl

theorem test_decode_interrupts :
    decodeTableWord 48 0x010000000000 = some .intStRead ∧
    decodeTableWord 48 0x11008000A5C3 = some (.intClr 0x8000A5C3#32) ∧
    decodeTableWord 48 0x010400000000 = some .intEnaRead ∧
    decodeTableWord 48 0x11048000A5C3 = some (.intEna 0x8000A5C3#32) ∧
    decodeTableWord 48 0x010800000000 = some .faultVaddrRead ∧
    decodeTableWord 48 0x010C00000000 = some .faultInfoRead := by and_intros <;> rfl

theorem test_decode_register_file :
    decodeTableWord 48 0x006C00000000 = some (.regRead 0x06C#12) ∧
    decodeTableWord 48 0x000000000000 = some (.regRead 0x000#12) ∧
    decodeTableWord 48 0x120012345678 = some (.regWrite 0x200#12 0x12345678#32) ∧
    decodeTableWord 48 0x104400001234 = some (.regWrite 0x044#12 0x00001234#32) ∧
    decodeTableWord 48 0x000200000000 = none ∧
    decodeTableWord 48 0x100100000000 = none := by and_intros <;> rfl

theorem test_decode_mmu :
    decodeTableWord 48 0x0FFC00000000 = some (.mmuRead 511#9) ∧
    decodeTableWord 48 0x080800000000 = some (.mmuRead 2#9) ∧
    decodeTableWord 48 0x1808FFFFFFFF = some (.mmuWrite 2#9 0xFFFFFFFF#32) ∧
    decodeTableWord 8 0 = some (.mmuGet 0) ∧
    decodeTableWord 8 1 = some (.mmuSet 0 0#8 false) := by and_intros <;> rfl

/-- 30_encoding R68: `attr4 = {bus, world, class}`, written out for each of the twelve requests; class 3 is refused, and
so is a request whose data is not its length. -/
theorem test_decode_bus :
    decode (.bus 0b0000#4 0x42000000#32 4 []) = .ok (.ibusRead .world0 0x42000000#32 4) ∧
    decode (.bus 0b0001#4 0x42000000#32 1 [0xAA#8]) = .ok (.ibusWrite .world0 0x42000000#32 [0xAA#8]) ∧
    decode (.bus 0b0010#4 0x42000000#32 4 []) = .ok (.ibusFetch .world0 0x42000000#32 4) ∧
    decode (.bus 0b0100#4 0x42000000#32 4 []) = .ok (.ibusRead .world1 0x42000000#32 4) ∧
    decode (.bus 0b0101#4 0x42000000#32 1 [0xAA#8]) = .ok (.ibusWrite .world1 0x42000000#32 [0xAA#8]) ∧
    decode (.bus 0b0110#4 0x42000000#32 4 []) = .ok (.ibusFetch .world1 0x42000000#32 4) ∧
    decode (.bus 0b1000#4 0x3C000000#32 4 []) = .ok (.dbusRead .world0 0x3C000000#32 4) ∧
    decode (.bus 0b1001#4 0x3C000000#32 1 [0xAA#8]) = .ok (.dbusWrite .world0 0x3C000000#32 [0xAA#8]) ∧
    decode (.bus 0b1010#4 0x3C000000#32 4 []) = .ok (.dbusFetch .world0 0x3C000000#32 4) ∧
    decode (.bus 0b1100#4 0x3C000000#32 4 []) = .ok (.dbusRead .world1 0x3C000000#32 4) ∧
    decode (.bus 0b1101#4 0x3C000000#32 1 [0xAA#8]) = .ok (.dbusWrite .world1 0x3C000000#32 [0xAA#8]) ∧
    decode (.bus 0b1110#4 0x3C000000#32 4 []) = .ok (.dbusFetch .world1 0x3C000000#32 4) ∧
    decode (.bus 0b1011#4 0x3C000000#32 4 []) = .error .reservedClass ∧
    decode (.bus 0b0001#4 0x42000000#32 2 [0xAA#8]) = .error .wdataLength ∧
    decode (.bus 0b0000#4 0x42000000#32 1 [0xAA#8]) = .error .wdataLength := by decide

/-- The bus rows of the table, whose key is attr4 alone (30_encoding R76). -/
theorem test_decode_bus_keys :
    decodeTableWord 8 0x4 = some (.ibusRead .world1 0#32 0) ∧
    decodeTableWord 8 0x2 = some (.ibusFetch .world0 0#32 0) ∧
    decodeTableWord 8 0x8 = some (.dbusRead .world0 0#32 0) ∧
    decodeTableWord 8 0x5 = some (.ibusWrite .world1 0#32 []) ∧
    decodeTableWord 8 0x9 = some (.dbusWrite .world0 0#32 []) ∧
    decodeTableWord 8 0xA = some (.dbusFetch .world0 0#32 0) ∧
    decodeTableWord 8 0xB = none := by decide

/-- 20_memory R54, 45 R127, 70 R156. -/
theorem test_decode_ports :
    decode (.evict .dcache 1#9) = .ok (.evict .dcache 1#9) ∧ decode .reset = .ok .reset ∧
    decodeTableWord 0 0 = some .reset ∧ decode (.rd 16 0x000#12) = .error .registerWidth ∧
    decode (.wr 32 0x002#12 0#32) = .error .unalignedOffset ∧
    decode (.mmuSet 600 0x10#8 true) = .ok (.mmuSet 600 0x10#8 true) := by decide +kernel

/-! ## Small states, and what a result holds -/

/-- Both caches enabled, pages 0 and 1 at page 3, page 511 at page 0xFF, four bytes of flash at 0x30010 (the start
state of vectors L2.3). -/
def ready : State :=
  { State.reset with
    dev := ((((State.reset.dev.setCache .dcache { CacheState.reset with cstate := .enabled }).setCache .icache
      { CacheState.reset with cstate := .enabled }).setEntry 0 { page := 3#8, invalid := false }).setEntry 1
      { page := 3#8, invalid := false }).setEntry 511 { page := 0xFF#8, invalid := false }
    flash := [(0x30010, 0x11#8), (0x30011, 0x22#8), (0x30012, 0x33#8), (0x30013, 0x44#8)] }

/-- `ready` with the state of DCACHE changed. -/
def readyD (f : CacheState → CacheState) : State :=
  { ready with dev := ready.dev.setCache .dcache (f ready.dev.dcache) }

/-- `ready` with the state of ICACHE changed. -/
def readyI (f : CacheState → CacheState) : State :=
  { ready with dev := ready.dev.setCache .icache (f ready.dev.icache) }

/-- `ready` with the permission table of a bus changed. -/
def readyPms (b : Bus) (f : PmsTable → PmsTable) : State :=
  { ready with dev := ready.dev.setPms b (f (ready.dev.pms b)) }

/-- `ready` with one event to come. -/
def readyEvent (e : Event) : State :=
  { ready with program := [e] }

/-- The answer of a result. -/
def answerOf : Result → Option Answer
  | .next s => some s.answer
  | .fault _ => none
  | .refused _ => none

/-- The refusal of a result. -/
def refusalOf : Result → Option Refusal
  | .next _ => none
  | .fault _ => none
  | .refused r => some r

/-- A part of the state after a result. -/
def after (f : State → α) : Result → Option α
  | .next s => some (f s)
  | .fault _ => none
  | .refused _ => none

/-- What the register at an offset reads. -/
def reads (off : BitVec 12) (s : State) : Word :=
  readReg (regAt off) s.dev

/-! ## Steps: results of 95_test_vectors -/

/-- L2.1 #1 -/
theorem test_regRead_unmapped :
    answerOf (exec (.regRead 0x06C#12) State.reset) = some (.word 0#32) := by decide +kernel

/-- L2.1 #4 -/
theorem test_regRead_unaligned :
    refusalOf (exec (.regRead 0x002#12) State.reset) = some .unalignedOffset := by decide +kernel

/-- L2.1 #3 -/
theorem test_regWrite_unmapped :
    exec (.regWrite 0x200#12 0xFFFFFFFF#32) State.reset = .next { State.reset with answer := .nothing } := by rfl

/-- L2.1 #7 -/
theorem test_regWrite_counter_ignored :
    after (reads 0x044#12) (exec (.regWrite 0x044#12 0x1234#32) State.reset) = some 0#32 := by decide +kernel

/-- L2.2 #1 -/
theorem test_mmuRead_reset :
    answerOf (exec (.mmuRead 511#9) State.reset) = some (.word 0x100#32) := by decide +kernel

/-- L2.2 #2 -/
theorem test_mmuWrite_all_ones :
    after (reads 0x808#12) (exec (.mmuWrite 2#9 0xFFFFFFFF#32) State.reset) = some 0x1FF#32 := by decide +kernel

/-- L2.2 #3 -/
theorem test_mmuWrite_reserved_bit :
    after (fun s => s.dev.entry 0) (exec (.mmuWrite 0#9 0x200#32) State.reset) =
      some { page := 0#8, invalid := false } := by decide +kernel

/-- L2.2 #8 -/
theorem test_mmuGet_reset :
    answerOf (exec (.mmuGet 3) State.reset) = some (.entry 0#8 true) := by decide +kernel

/-- L1.5 -/
theorem test_mmuGet_out_of_range :
    answerOf (exec (.mmuGet 512) State.reset) = some .outOfRange := by decide +kernel

/-- L1.5 -/
theorem test_mmuSet_last :
    after (reads 0xFFC#12) (exec (.mmuSet 511 0x10#8 false) State.reset) = some 0x10#32 := by decide +kernel

/-- L1.5, L2.2 #6 -/
theorem test_mmuSet_out_of_range :
    exec (.mmuSet 512 0x10#8 false) State.reset = .next { State.reset with answer := .outOfRange } := by rfl

/-- L2.1 #5 -/
theorem test_dcacheWrap_with_enable :
    after (reads 0x000#12) (exec (.dcacheWrap 0x5#32) State.reset) = some 0x5#32 := by decide +kernel

/-- L2.1 #6 -/
theorem test_dcacheDisable_no_edge :
    exec (.dcacheDisable 0xFFFFFFF8#32) State.reset = .next { State.reset with answer := .nothing } := by rfl

/-- L2.1 #12 -/
theorem test_icacheShut_all_three :
    after (reads 0x080#12) (exec (.icacheShut 0x7#32) State.reset) = some 0x7#32 := by decide +kernel

/-- L2.5 #1 -/
theorem test_dcacheEnable :
    after (reads 0x000#12) (exec (.dcacheEnable 0x1#32) State.reset) = some 0x1#32 := by decide +kernel

/-- L2.5 #2 -/
theorem test_dcacheDisable :
    after (reads 0x000#12) (exec (.dcacheDisable 0x0#32) ready) = some 0#32 := by decide +kernel

/-- L2.5 #3 -/
theorem test_dcacheFreeze :
    after (reads 0x004#12) (exec (.dcacheFreeze 0x1#32) ready) = some 0x5#32 := by decide +kernel

/-- L2.5 #8 -/
theorem test_dcacheFreeze_disabled :
    after (reads 0x004#12) (exec (.dcacheFreeze 0x1#32) State.reset) = some 0#32 := by decide +kernel

/-- L2.5 #4 -/
theorem test_dcacheFreezeMode :
    after (reads 0x004#12) (exec (.dcacheFreezeMode 0x3#32) ready) = some 0x7#32 := by decide +kernel

/-- L2.5 #5 -/
theorem test_dcacheUnfreeze :
    after (reads 0x004#12) (exec (.dcacheUnfreeze 0x0#32)
      (readyD fun x => { x with cstate := .frozen, freezeMode := true })) = some 0#32 := by decide +kernel

/-- L2.5 #6 -/
theorem test_dcacheFreezeMode_unfreezes :
    after (reads 0x004#12) (exec (.dcacheFreezeMode 0x2#32) (readyD fun x => { x with cstate := .frozen })) =
      some 0x2#32 := by decide +kernel

/-- L2.5 #7 -/
theorem test_dcacheDisable_ignored_frozen :
    after (reads 0x000#12) (exec (.dcacheDisable 0x0#32) (readyD fun x => { x with cstate := .frozen })) =
      some 0x1#32 := by decide +kernel

/-- L2.5 #11 -/
theorem test_dcacheShut :
    after (reads 0x000#12) (exec (.dcacheShut 0x3#32) ready) = some 0x3#32 := by decide +kernel

/-- L2.5 #12 -/
theorem test_icacheEnable_other_block :
    after (reads 0x000#12) (exec (.icacheEnable 0x1#32) State.reset) = some 0#32 ∧
    after (reads 0x080#12) (exec (.icacheEnable 0x1#32) State.reset) = some 0x1#32 := by decide +kernel

/-- L2.1 #9 -/
theorem test_dcachePreload_invalid_range :
    after (fun s => (s.dev.dcache.preloadDone, s.dev.intSt)) (exec (.dcachePreload 0x1#32) State.reset) =
      some (false, 0x20#11) := by decide +kernel

/-- L2.6 #9, #10 -/
theorem test_dcachePreload_pages :
    after (fun s => (s.dev.dcache.resident, reads 0x01C#12 s)) (exec (.dcachePreload 0x5#32)
      (readyD fun x => { x with preloadAddr := 0x3C01FFFF#32, preloadSize := 0x2#32 })) = some (0x6#512, 0x6#32) := by decide +kernel

/-- L2.6 #1 -/
theorem test_dcacheLock0_invalid :
    after (fun s => (reads 0x008#12 s, s.dev.intSt)) (exec (.dcacheLock0 0x1#32) ready) = some (0#32, 0x20#11) := by decide +kernel

/-- L2.6 #2 -/
theorem test_icacheLock0_invalid :
    after (fun s => s.dev.intSt) (exec (.icacheLock0 0x1#32) ready) = some 0x10#11 := by decide +kernel

/-- L2.6 #4 -/
theorem test_dcacheLock0_last_page :
    after (fun s => (reads 0x008#12 s, pinned s.cfg .dcache s.dev.dcache 511, pinned s.cfg .dcache s.dev.dcache 510))
      (exec (.dcacheLock0 0x1#32) (readyD fun x => x.setLock .s0
        { LockSection.reset with addr := 0x3DFF0000#32, size := 0x10000#32 })) = some (0x3#32, true, false) := by decide +kernel

/-- L2.6 #8 -/
theorem test_dcacheLock1_unlocks_section0 :
    after (reads 0x008#12) (exec (.dcacheLock1 0x4#32) (readyD fun x =>
      (x.setLock .s0 { addr := 0x3C000000#32, size := 0x20000#32, ena := true, range := { start := 0x3C000000#32, size := 0x20000#32 } }).setLock .s1
        { LockSection.reset with addr := 0x3C040000#32, size := 0x10000#32 })) = some 0xC#32 := by decide +kernel

/-- L2.6 #15: armed with trigger 1 -/
theorem test_dcacheAutoloadArm0 :
    after (reads 0x028#12) (exec (.dcacheAutoloadDisarm1 0x11#32) (readyD fun x => x.setAl .s0
      { AutoloadSection.reset with addr := 0x3C030000#32, size := 0x20000#32 })) = some 0x13#32 := by decide +kernel

/-- L2.6 #23 -/
theorem test_dcacheAutoloadDisarm0 :
    after (reads 0x028#12) (exec (.dcacheAutoloadDisarm0 0x0#32) (readyD fun x => x.setAl .s0
      { AutoloadSection.reset with ena := true })) = some 0#32 := by decide +kernel

/-- L2.6 #19 -/
theorem test_dcacheInvalidate_keeps_pinned :
    after (fun s => (s.dev.dcache.resident, reads 0x03C#12 s)) (exec (.dcacheInvalidate 0x1#32) (readyD fun x =>
      CacheState.setLock { x with resident := 0x7#512 } .s0
        { LockSection.reset with ena := true, range := { start := 0x3C001000#32, size := 0x1000#32 } })) =
      some (0x1#512, 0x2#32) := by decide +kernel

/-- L2.1 #11 -/
theorem test_icacheInvalidate :
    after (reads 0x0BC#12) (exec (.icacheInvalidate 0x1#32) State.reset) = some 0x2#32 := by decide +kernel

/-- L2.6 #20 -/
theorem test_evict :
    after (fun s => s.dev.dcache.resident) (exec (.evict .dcache 1#9) (readyD fun x => { x with resident := 0x3#512 })) =
      some 0x1#512 := by decide +kernel

/-- L2.6 #22 -/
theorem test_evict_frozen :
    refusalOf (exec (.evict .dcache 1#9) (readyD fun x => { x with resident := 0x2#512, cstate := .frozen })) =
      some .evictNotEnabled := by decide +kernel

/-- L2.7 #3 -/
theorem test_icacheCntClr :
    after (fun s => (s.dev.icache.acsCnt, s.dev.icache.missCnt, s.dev.dcache.acsCnt)) (exec (.icacheCntClr 0x1#32)
      { readyD (fun x => { x with acsCnt := 9#32 }) with
        dev := (readyD fun x => { x with acsCnt := 9#32 }).dev.setCache .icache
          { CacheState.reset with acsCnt := 5#32, missCnt := 2#32 } }) = some (0#32, 0#32, 9#32) := by decide +kernel

/-- L2.7 #4 -/
theorem test_dcacheCntClr_status_stays :
    after (fun s => (s.dev.dcache.acsCnt, s.dev.intSt)) (exec (.dcacheCntClr 0x1#32)
      { ready with dev := setStatus 8 ready.dev }) = some (0#32, 0x100#11) := by decide +kernel

/-- L2.7 #5 -/
theorem test_icachePsramMissCntRead :
    answerOf (exec .icachePsramMissCntRead ready) = some (.word 0#32) := by decide +kernel

/-- L2.4 #6 -/
theorem test_dbusPmsSetAttr0 :
    after (reads 0x05C#12) (exec (.dbusPmsSetAttr0 0xFF#32) State.reset) = some 0x77#32 := by decide +kernel

/-- L2.4 #7 -/
theorem test_dbusPmsSetBoundary0 :
    after (reads 0x050#12) (exec (.dbusPmsSetBoundary0 0xFFFFF123#32) State.reset) = some 0x123#32 := by decide +kernel

/-- L2.4 #8 -/
theorem test_dbusPmsSetBoundary0_locked :
    after (reads 0x050#12) (exec (.dbusPmsSetBoundary0 0x9#32)
      (readyPms .dbus fun x => { x with lock := 1#3 })) = some 0xFFF#32 := by decide +kernel

/-- L2.4 #10 -/
theorem test_dbusPmsLock_sticky :
    after (reads 0x068#12) (exec (.dbusPmsLock 0x6#32)
      (readyPms .dbus fun x => { x with lock := 1#3 })) = some 0x7#32 := by decide +kernel

/-- L2.4 #11 -/
theorem test_ibusPmsSetBoundary0_other_lock :
    after (reads 0x0D0#12) (exec (.ibusPmsSetBoundary0 0x5#32)
      (readyPms .dbus fun x => { x with lock := 1#3 })) = some 0x5#32 := by decide +kernel

/-- L2.4 #2 -/
theorem test_pmsSection_overlap :
    ((List.map (pmsSection { PmsTable.reset PmsReset.default with bound0 := 8#12, bound1 := 4#12, bound2 := 12#12 })
      [3, 5, 9, 12]) = [some .k0, some .k0, some .k2, none]) := by decide +kernel

/-- L2.4 #3 -/
theorem test_ibusRead_permissionFault :
    after (fun s => (s.answer, s.dev.faultInfo, s.dev.intSt)) (exec (.ibusRead .world1 0x42000000#32 4)
      (readyPms .ibus fun x => { x with bound0 := 0#12, bound1 := 0#12, bound2 := 0#12 })) =
      some (.permissionFault, 0xC12#32, 0x4#11) := by decide +kernel

/-- L2.4 #4 -/
theorem test_ibusFetch_permissionFault :
    after (fun s => (s.answer, s.dev.faultInfo)) (exec (.ibusFetch .world1 0x42000000#32 4)
      (readyPms .ibus fun x => { x with attr0 := 0x37#8 })) =
      some (.permissionFault, 0x272#32) := by decide +kernel

/-- L1.6 -/
theorem test_dbusWrite_permissionFault :
    after (fun s => (s.answer, s.dev.faultInfo, s.dev.faultVaddr, s.dev.intSt)) (exec (.dbusWrite .world0 0x3C050000#32 [0#8])
      (readyPms .dbus fun x => { x with bound0 := 4#12, bound1 := 8#12, attr1 := 0x11#8, lock := 2#3 })) =
      some (.permissionFault, 0x1522#32, 0x3C050000#32, 0x8#11) := by decide +kernel

/-- L2.3 #4 -/
theorem test_ibusRead_above_window :
    answerOf (exec (.ibusRead .world0 0x43FFFFFE#32 4) ready) = some .rangeFault := by decide +kernel

/-- L2.3 #5, #6 -/
theorem test_dbusRead_page_crossing :
    refusalOf (exec (.dbusRead .world0 0x3C00FFFE#32 4) ready) = some .pageCrossing ∧
    refusalOf (exec (.dbusRead .world0 0x3C000000#32 65) ready) = some .accessLength := by decide +kernel

/-- L2.3 #8 -/
theorem test_dbusRead_miss :
    after (fun s => (s.answer, s.dev.dcache.acsCnt, s.dev.dcache.missCnt, s.dev.dcache.resident))
      (exec (.dbusRead .world0 0x3C010010#32 4) ready) =
      some (.ok [0x11#8, 0x22#8, 0x33#8, 0x44#8], 1#32, 1#32, 0x2#512) := by decide +kernel

/-- L2.3 #24 -/
theorem test_dbusFetch :
    answerOf (exec (.dbusFetch .world0 0x3C000010#32 4) ready) = some (.ok [0x11#8, 0x22#8, 0x33#8, 0x44#8]) := by decide +kernel

/-- L2.3 #10 -/
theorem test_dbusFetch_translationFault :
    after (fun s => (s.answer, s.dev.faultInfo, s.dev.faultVaddr, s.dev.intSt))
      (exec (.dbusFetch .world0 0x3C020000#32 4) ready) = some (.translationFault, 0x21#32, 0x3C020000#32, 0x2#11) := by decide +kernel

/-- L2.3 #11, on IBUS -/
theorem test_ibusFetch_shut :
    answerOf (exec (.ibusFetch .world0 0x42000010#32 4) (readyI fun x => { x with shut := true })) = some .shut := by decide +kernel

/-- L2.3 #17 -/
theorem test_dbusWrite_enabled :
    after (fun s => (s.answer, s.byteAt .flash 0x30010, s.byteAt .flash 0x30011))
      (exec (.dbusWrite .world0 0x3C000010#32 [0x55#8]) ready) = some (.ok [], 0x55#8, 0x22#8) := by decide +kernel

/-- L2.3 #16, on IBUS -/
theorem test_ibusWrite_frozen_mode0 :
    after (fun s => (s.answer, s.flash, s.dev.icache.acsCnt, s.dev.icache.missCnt)) (exec (.ibusWrite .world0 0x42000010#32 [0x55#8])
      (readyI fun x => { x with cstate := .frozen })) = some (.ok [], ready.flash, 1#32, 1#32) := by decide +kernel

/-- L2.3 #14, on IBUS -/
theorem test_ibusWrite_frozen_mode1 :
    answerOf (exec (.ibusWrite .world0 0x42000010#32 [0x55#8])
      (readyI fun x => { x with cstate := .frozen, freezeMode := true })) = some .frozenWriteRejected := by decide +kernel

/-- L2.3 #18 -/
theorem test_translate_wrap :
    translate { Params.default with flashSize := 0x400000 } .dcache 0x3C000008#32
      ((ready.dev.setEntry 0 { page := 0x41#8, invalid := false }).setCache .dcache { ready.dev.dcache with wrap := true }) =
      .at .flash 0x10008 := by decide +kernel

/-- L2.7 #1 -/
theorem test_counter_overflow :
    after (fun s => (s.dev.dcache.acsCnt, s.dev.dcache.missCnt, s.dev.intSt)) (exec (.dbusRead .world0 0x3C000000#32 4)
      (readyD fun x => { x with acsCnt := 0xFFFFFFFF#32, missCnt := 0xFFFFFFFF#32 })) =
      some (0xFFFFFFFF#32, 0xFFFFFFFF#32, 0x300#11) := by decide +kernel

/-- L2.6 #13, on pages 0 and 1 -/
theorem test_autoload_on_miss :
    after (fun s => (s.dev.dcache.resident, s.dev.dcache.missCnt)) (exec (.dbusFetch .world0 0x3C000010#32 4)
      (readyD fun x => x.setAl .s0 { AutoloadSection.reset with ena := true, range := { start := 0x3C000000#32, size := 0x20000#32 } })) =
      some (0x3#512, 1#32) := by decide +kernel

/-- L2.8 #1 -/
theorem test_intClr :
    after (fun s => (s.dev.intSt, s.dev.faultInfo)) (exec (.intClr 0x2#32)
      { ready with dev := { ready.dev with intSt := 0x6#11, faultCode := 1#4 } }) = some (0x4#11, 1#32) := by decide +kernel

/-- L2.8 #3 -/
theorem test_intEna :
    after (reads 0x104#12) (exec (.intEna 0xFFFFFFFF#32) State.reset) = some 0x7FF#32 := by decide +kernel

/-- L2.8 #4 -/
theorem test_intEna_asserts :
    after (fun s => s.dev.intOut) (exec (.intEna 0x2#32) { ready with dev := setStatus 1 ready.dev }) = some true := by decide +kernel

/-- L2.8 #9 -/
theorem test_faultRecord_write_ignored :
    after (fun s => s.dev.faultRecord) (exec (.regWrite 0x108#12 0#32)
      { ready with dev := { ready.dev with faultVaddr := 0x42020000#32, faultCode := 1#4 } }) =
      some (0x42020000#32, 1#4, 0#10) := by decide +kernel

/-- L2.9 #1 -/
theorem test_reset :
    after (fun s => (reads 0x000#12 s, reads 0x050#12 s, reads 0x064#12 s, reads 0x800#12 s, s.dev.intSt, s.byteAt .flash 0x30010)) (exec .reset
      { ready with dev := { ready.dev with intSt := 0x7FF#11, intEna := 0x7FF#11 } }) =
      some (0#32, 0xFFF#32, 0x77#32, 0x100#32, 0#11, 0x11#8) := by decide +kernel

/-- The interface: a table word placed for the next step is run by it. -/
theorem test_withFetchWord :
    after (reads 0x000#12) (step (State.reset.withFetchWord 48 0x100000000001)) = some 0x1#32 ∧
    answerOf (step (State.reset.withFetchWord 48 0x0FFC00000000)) = some (.word 0x100#32) ∧
    answerOf (step (State.reset.withFetchWord 8 0)) = some (.entry 0#8 true) := by decide +kernel

/-- 20_memory R58: the environment writes its own store, and the block's state stays. -/
theorem test_storeWrite :
    after (fun s => (s.byteAt .psram 0x10, s.dev.dcache.cstate, s.position))
      (step (readyEvent (.storeWrite .psram 0x10 [0x5A#8]))) = some (0x5A#8, .enabled, 1) := by decide +kernel

/-- The canonical form at reset and after a write of what an unlisted offset reads as. -/
theorem test_memory_canonical :
    Memory.wf State.reset.flash = true ∧ Memory.wf State.reset.psram = true ∧ Memory.wf ready.flash = true ∧
    Memory.write [(1, 2#8)] 1 0#8 = [] ∧ Memory.write [(1, 2#8)] 0 3#8 = [(0, 3#8), (1, 2#8)] ∧
    Memory.wf [(1, 0#8)] = false ∧ Memory.wf [(2, 1#8), (1, 1#8)] = false := by decide

/-- 00_scope R9. -/
theorem test_configuration_check :
    Params.default.valid = true ∧
    ({ Params.default with ibusBase := 0x42000001#32 } : Params).valid = false ∧
    ({ Params.default with ibusBase := 0x3D000000#32 } : Params).valid = false ∧
    ({ Params.default with maxAccessLen := 0 } : Params).valid = false := by decide +kernel

/-! ## Witnesses: the hypotheses of the statements can be met -/

theorem witness_DecodeOfEncodeIsIdentity :
    WellFormed (.dcacheLock1 0x4#32) = true ∧ primary (.dcacheLock1 0x4#32) = true ∧
    WellFormed (.regWrite 0x03C#12 0xFFFFFFFE#32) = true ∧ primary (.regWrite 0x03C#12 0xFFFFFFFE#32) = true := by and_intros <;> decide +kernel

theorem witness_RowsOfOneTransactionHaveOneMeaning :
    encode (.dcacheShut 0x3#32) = encode (.dcacheEnable 0x3#32) ∧ WellFormed (.dcacheEnable 0x3#32) = true ∧
    primary (.dcacheEnable 0x3#32) = false := by and_intros <;> decide +kernel

theorem witness_DecodedInstructionEncodesBack :
    decode (.wr 32 0x008#12 0x1#32) = .ok (.dcacheLock0 0x1#32) := by decide +kernel

theorem witness_UnalignedOrNarrowRegisterTransactionRefused :
    State.reset.cfg.valid = true ∧ fetch (readyEvent (.op (.rd 16 0x000#12))) = some (.op (.rd 16 0x000#12)) ∧
    fetch (readyEvent (.op (.wr 32 0x003#12 0#32))) = some (.op (.wr 32 0x003#12 0#32)) ∧ (0x003#12).toNat % 4 ≠ 0 ∧
    (readyEvent (.op (.rd 16 0x000#12))).cfg.valid = true := by and_intros <;> decide +kernel

theorem witness_StepRunsTheDecodedInstruction :
    (readyEvent (.op .reset)).cfg.valid = true ∧ fetch (readyEvent (.op .reset)) = some (.op .reset) ∧
    decode .reset = .ok .reset ∧ (answerOf (exec .reset (readyEvent (.op .reset)))).isSome = true ∧
    fetch (readyEvent (.op (.evict .dcache 0#9))) = some (.op (.evict .dcache 0#9)) ∧
    (refusalOf (exec (.evict .dcache 0#9) (readyEvent (.op (.evict .dcache 0#9))))).isSome = true := by and_intros <;> decide +kernel

theorem witness_StepWithoutTransaction :
    ({ ready with cfg := { Params.default with maxAccessLen := 0 } } : State).cfg.valid = false ∧ ready.cfg.valid = true ∧
    fetch ready = none ∧ Memory.wf (ready.store .flash) = true ∧
    fetch (readyEvent (.storeWrite .flash 0xFFFFFF [1#8])) = some (.storeWrite .flash 0xFFFFFF [1#8]) ∧
    0xFFFFFF + [1#8].length ≤ storeSize ready.cfg .flash := by and_intros <;> decide +kernel

theorem witness_StepKeepsParametersAndAdvances :
    (after (fun s => s.position) (step (readyEvent (.op .reset)))) = some 1 := by decide +kernel

theorem witness_AccessAfterResetFaults :
    (answerOf (exec .reset ready)).isSome = true ∧
    routed ready.cfg .dbus 0x3C000000#32 (accessLen .read 4 []) ∧ routed ready.cfg .ibus 0x43FFFFFF#32 (accessLen .write 0 [0#8]) ∧
    ready.cfg.ipmsReset = PmsReset.default ∧ ready.cfg.dpmsReset = PmsReset.default := by 
  refine ⟨by decide +kernel, ?_, ?_, rfl, rfl⟩ <;> unfold routed <;> decide +kernel

theorem witness_RegisterReadAnswersAWord :
    (0xFFC#12).toNat % 4 = 0 ∧ (0xFFF#12).toNat % 4 ≠ 0 := by and_intros <;> decide +kernel

theorem witness_UnmappedOffsetReadsZeroIgnoresWrites :
    ∀ off ∈ [0x06C#12, 0x07C#12, 0x0EC#12, 0x0FC#12, 0x110#12, 0x7FC#12], off.toNat % 4 = 0 ∧
      ((0x068 < off.toNat ∧ off.toNat < 0x080) ∨ (0x0E8 < off.toNat ∧ off.toNat < 0x100) ∨
        (0x10C < off.toNat ∧ off.toNat < 0x800)) := by decide +kernel

theorem witness_RegisterWriteCompletes :
    (0x002#12).toNat % 4 ≠ 0 ∧ (0x000#12).toNat % 4 = 0 ∧
    decode (.wr 32 0x000#12 0x3#32) = .ok (.dcacheShut 0x3#32) ∧ blockOffset .icache 0x4C = 0x0CC#12 ∧
    (0xFFFFFFFE#32).getLsbD 0 = false ∧ blockOffset .icache 0x1C = 0x09C#12 := by and_intros <;> decide +kernel

theorem witness_MmuPortRoundTrip :
    511 < 512 ∧ 512 ≤ 512 := by decide

theorem witness_CtrlWriteFollowsTheStateMachine :
    Instr.dcacheEnable 0x1#32 ∈ ctrlRows .dcache 0x1#32 ∧ Instr.icacheWrap 0x4#32 ∈ ctrlRows .icache 0x4#32 := by and_intros <;> decide +kernel

theorem witness_FreezeWriteFollowsTheStateMachine :
    Instr.dcacheUnfreeze 0x0#32 ∈ freezeRows .dcache 0x0#32 ∧ Instr.icacheFreezeMode 0x3#32 ∈ freezeRows .icache 0x3#32 := by and_intros <;> decide +kernel

theorem witness_LockCtrlWriteLocksAndUnlocks :
    Instr.dcacheLock0 0x1#32 ∈ lockRows .dcache 0x1#32 ∧ Instr.icacheUnlock1 0x1#32 ∈ lockRows .icache 0x1#32 := by and_intros <;> decide +kernel

theorem witness_AutoloadCtrlWriteArmsAndDisarms :
    Instr.dcacheAutoloadArm1 0x4#32 ∈ autoloadRows .dcache 0x4#32 ∧
    Instr.icacheAutoloadDisarm0 0x4#32 ∈ autoloadRows .icache 0x4#32 := by and_intros <;> decide +kernel

theorem witness_PreloadLoadsItsPages :
    (0x1#32).getLsbD 0 = true ∧ validRange ready.cfg .dcache { start := 0x3DFF0000#32, size := 0x10000#32 } = true ∧
    validRange ready.cfg .dcache { start := 0x3DFF0000#32, size := 0x10001#32 } = false := by and_intros <;> decide +kernel

theorem witness_InvalidateKeepsPinnedPages :
    (0x1#32).getLsbD 0 = true ∧
    511 ∈ pages ready.cfg .dcache { start := 0x3DFF0000#32, size := 0x10000#32 } := by and_intros <;> decide +kernel

theorem witness_EvictClearsOneUnpinnedPage :
    (readyD fun x => { x with resident := 0x3#512 }).dev.residentAt .dcache 1 = true ∧
    (readyD fun x => { x with resident := 0x3#512 }).dev.dcache.cstate ≠ .frozen ∧
    (readyD fun x => { x with resident := 0x3#512 }).dev.dcache.lock0.ena = false ∧
    (readyD fun x => { x with resident := 0x3#512 }).dev.dcache.lock1.ena = false ∧
    ready.dev.residentAt .dcache 1 = false ∧
    1 ∈ pages ready.cfg .dcache { start := 0x3C01FFFF#32, size := 0x1#32 } := by and_intros <;> decide +kernel

theorem witness_CounterClearClearsOneCache :
    (0x1#32).getLsbD 0 = true := by decide +kernel

/-- `ready` meets the invariant. -/
theorem ready_inv : Inv ready := by
  constructor
  case ipmsReserved => unfold PmsTable.reservedClear; decide +kernel
  case dpmsReserved => unfold PmsTable.reservedClear; decide +kernel
  case icacheRanges => unfold capturedRangesValid; decide +kernel
  case dcacheRanges => unfold capturedRangesValid; decide +kernel
  all_goals decide +kernel

theorem witness_CounterReadsAnswerTheCounters : Inv ready :=
  ready_inv

theorem witness_StepKeepsTheInvariant :
    Inv ready ∧ (after (fun s => s.position) (step (ready.withFetchWord 48 0x100000000001))) = some 1 :=
  ⟨ready_inv, by decide +kernel⟩

theorem witness_MissesStayWithinAccesses :
    (answerOf (exec (.dbusRead .world0 0x3C000010#32 4) ready)).isSome = true ∧ countsConsistent ready.dev.dcache ∧
    ready.dev.dcache.acsCnt ≠ 0xFFFFFFFF#32 := by 
  refine ⟨by decide +kernel, ?_, by decide +kernel⟩
  unfold countsConsistent
  decide +kernel

theorem witness_PmsStoredWhileUnlocked :
    ready.dev.dpms.lock = 0#3 ∧ (PmsTable.reset PmsReset.default).lock = 0#3 ∧
    ({ ready.dev.dpms with lock := 4#3 } : PmsTable).lock ≠ 0#3 := by and_intros <;> decide +kernel

theorem witness_LockedPermissionTableIsFrozen :
    (answerOf (step { readyPms .dbus (fun x => { x with lock := 4#3 }) with
      program := [.op (.wr 32 0x050#12 0x4#32)] })).isSome = true ∧
    fetch (readyEvent (.op (.wr 32 0x050#12 0x4#32))) ≠ some (.op .reset) ∧
    (readyPms .dbus fun x => { x with lock := 4#3 }).dev.dpms.lock ≠ 0#3 := by and_intros <;> decide +kernel

theorem witness_FaultRecordReadsAndStays :
    after (fun s => s.dev.faultRecord) (exec (.dbusRead .world0 0x3C020000#32 4) ready) =
      some (0x3C020000#32, 1#4, 2#10) ∧ ready.dev.faultRecord = (0#32, 0#4, 0#10) := by and_intros <;> decide +kernel

theorem witness_StatusBitsClearOnlyBySoftware :
    (setStatus 10 ready.dev).intSt.getLsbD 10 = true ∧
    after (fun s => s.dev.intSt.getLsbD 10) (step { readyEvent (.op (.wr 32 0x100#12 0x400#32)) with
      dev := setStatus 10 ready.dev }) = some false := by and_intros <;> decide +kernel

theorem witness_BusAccessRoutingChecks :
    (if AccessClass.write = .write then ([] : List Byte).length else 9) = 0 ∧
    ready.cfg.maxAccessLen < (if AccessClass.read = .write then ([] : List Byte).length else 65) ∧
    (if Bus.ibus = .ibus then ready.cfg.ibusBase else ready.cfg.dbusBase).toNat = 0x42000000 ∧
    (0x41FFFFFF#32).toNat < 0x42000000 ∧ 0x42000000 + 33554432 < (0x43FFFFFF#32).toNat + 2 ∧
    (if Bus.dbus = .ibus then ready.cfg.ibusBase else ready.cfg.dbusBase).toNat = 0x3C000000 ∧
    0x3C000000 ≤ (0x3C00FFFF#32).toNat ∧ (0x3C00FFFF#32).toNat + 2 ≤ 0x3C000000 + 33554432 ∧
    65536 < (0x3C00FFFF#32).toNat % 65536 + 2 := by and_intros <;> decide +kernel

theorem witness_PermissionFaultIsLatched :
    routed (readyPms .dbus fun x => { x with bound0 := 0#12, bound1 := 0#12, bound2 := 0#12 }).cfg .dbus 0x3C000000#32
      (accessLen .write 0 [0#8]) ∧
    pmsSection ((readyPms .dbus fun x => { x with bound0 := 0#12, bound1 := 0#12, bound2 := 0#12 }).dev.pms .dbus)
      (((0x3C000000#32 : Word).toNat - windowBase ready.cfg .dcache) / 65536) = none ∧
    pmsSection ((readyPms .dbus fun x => { x with attr0 := 0x75#8 }).dev.pms .dbus) 0 = some .k0 ∧
    (worldAttr (((readyPms .dbus fun x => { x with attr0 := 0x75#8 }).dev.pms .dbus).attr .k0) .world0).getLsbD 1 =
      false := by
  and_intros <;> decide +kernel

theorem witness_TranslationFaultIsLatched :
    routed ready.cfg .dbus 0x3C020000#32 (accessLen .read 4 []) ∧
    (0x3C020000#32 : Word).toNat - windowBase ready.cfg .dcache = 2 * 65536 ∧
    pmsAllows ready.dev.dpms .world0 .read 2 = true ∧ (ready.dev.entry 2).invalid = true := by
  and_intros <;> decide +kernel

theorem witness_CacheStateTurnsAccessesAway :
    (routed ready.cfg .dbus 0x3C000010#32 (accessLen .write 0 [0#8])) ∧
    (∀ s ∈ [readyD fun x => { x with shut := true }, readyD fun x => { x with cstate := .disabled },
        readyD fun x => { x with cstate := .frozen, freezeMode := true }],
      pmsAllows (s.dev.pms .dbus) .world0 .write 0 = true ∧ (s.dev.entry 0).invalid = false) ∧
    (readyD fun x => { x with shut := true }).dev.dcache.shut = true ∧
    (readyD fun x => { x with cstate := .disabled }).dev.dcache.shut = false ∧
    (readyD fun x => { x with cstate := .disabled }).dev.dcache.cstate = .disabled ∧
    (readyD fun x => { x with cstate := .frozen, freezeMode := true }).dev.dcache.cstate = .frozen ∧
    (readyD fun x => { x with cstate := .frozen, freezeMode := true }).dev.dcache.freezeMode = true := by
  and_intros <;> decide +kernel

theorem witness_CompletedAccess :
    routed ready.cfg .dbus 0x3C000010#32 4 ∧ pmsAllows ready.dev.dpms .world0 .read 0 = true ∧
    pmsAllows ready.dev.dpms .world0 .write 0 = true ∧ pmsAllows ready.dev.dpms .world0 .fetch 0 = true ∧
    translate ready.cfg .dcache 0x3C000010#32 ready.dev = .at .flash 0x30010 ∧ ready.dev.dcache.shut = false ∧
    ready.dev.dcache.cstate = .enabled ∧ flashCrypted ready.cfg 0x30010 = false ∧
    0x30010 + 4 ≤ storeSize ready.cfg .flash ∧ Memory.wf (ready.store .flash) = true ∧
    answerOf (exec (busRow .dbus .read .world0 0x3C000010#32 4 []) ready) = some (.ok [0x11#8, 0x22#8, 0x33#8, 0x44#8]) := by 
  refine ⟨?_, by decide +kernel⟩
  unfold routed
  decide +kernel

/-- `ready` with parameters changed. -/
def readyCfg (f : Params → Params) : State :=
  { ready with cfg := f ready.cfg }

/-- The clauses of ReadAnswersTheStoreBytes beside the store's bytes: an encrypted offset at the last byte of its range,
and a range one byte longer than its store. -/
theorem witness_ReadAnswersTheStoreBytes :
    (∃ r ∈ (readyCfg fun p => { p with flashCrypt := [(0x30000, 0x11)] }).cfg.flashCrypt,
      r.1 ≤ 0x30010 ∧ 0x30010 < r.1 + r.2) ∧
    (answerOf (exec (busRow .dbus .read .world0 0x3C000010#32 4 [])
      (readyCfg fun p => { p with flashCrypt := [(0x30000, 0x11)] }))).isSome = true ∧
    (readyCfg fun p => { p with flashSize := 0x30013 }).cfg.flashSize < 0x30010 + 4 ∧
    after (fun s => s.draws) (exec (busRow .dbus .fetch .world0 0x3C000010#32 4 [])
      (readyCfg fun p => { p with flashSize := 0x30013 })) = some 0 := by and_intros <;> decide +kernel

/-- A read that runs one byte past its flash, twice, and then a read beside it. -/
def pastTheEnd : State :=
  { (readyCfg fun p => { p with flashSize := 0x30013 }) with
    program := [.op (.bus 0b1000#4 0x3C000010#32 4 []), .op (.bus 0b1000#4 0x3C000010#32 4 []),
      .op (.bus 0b1000#4 0x3C000011#32 4 [])] }

/-- The first two steps of `pastTheEnd` perform the same read, with the same draw; the third draws afresh. -/
theorem witness_IdenticalReadsAnswerTheSame :
    after fetch (step pastTheEnd) = some (fetch pastTheEnd) ∧
    after (fun t => (t.draws, after (fun u => (u.draws, u.flash)) (step t))) (step pastTheEnd) =
      some (0, some (1, pastTheEnd.flash)) := by and_intros <;> decide +kernel

theorem witness_FrozenWrite :
    (readyD fun x => { x with cstate := .frozen }).dev.dcache.cstate = .frozen ∧
    (readyD fun x => { x with cstate := .frozen }).dev.dcache.freezeMode = false ∧
    (readyD fun x => { x with cstate := .frozen }).dev.dcache.shut = false ∧
    translate ready.cfg .dcache 0x3C000010#32 (readyD fun x => { x with cstate := .frozen }).dev = .at .flash 0x30010 ∧
    answerOf (exec (busRow .dbus .write .world0 0x3C000010#32 0 [0x55#8])
      (readyD fun x => { x with cstate := .frozen })) = some (.ok []) := by and_intros <;> decide +kernel

theorem witness_RejectedAccessTouchesNothing :
    answerOf (exec (busRow .ibus .read .world0 0x44000000#32 1 []) ready) = some .rangeFault := by decide +kernel

theorem witness_PermissionOutcomeIgnoresTheMmuTable :
    answerOf (exec (busRow .dbus .write .world0 0x3C050000#32 0 [0#8])
      (readyPms .dbus fun x => { x with attr0 := 0x11#8 })) = some .permissionFault := by decide +kernel

theorem witness_ValidEntryTranslatesByPageNumber :
    ready.cfg.valid = true ∧
    (0x3DFFFFFF#32).toNat = (if CacheId.dcache = .icache then ready.cfg.ibusBase else ready.cfg.dbusBase).toNat +
      511 * 65536 + 65535 ∧
    (StoreId.flash = .psram ↔
      (if CacheId.dcache = .icache then ready.cfg.ipsramPages else ready.cfg.dpsramPages).getLsbD 511 = true) ∧
    (ready.dev.entry 511).invalid = false ∧ ready.dev.dcache.wrap = false ∧ (ready.dev.entry 2).invalid = true ∧
    (0x3C020000#32).toNat = 0x3C000000 + 2 * 65536 + 0 := by and_intros <;> decide +kernel

theorem witness_WrapReducesFlashOffsetsOnly :
    (readyD fun x => { x with wrap := true }).dev.dcache.wrap = true ∧
    ((readyD fun x => { x with wrap := true }).dev.entry 511).invalid = false ∧
    ready.cfg.dpsramPages.getLsbD 511 = false ∧ (1#512 <<< 511).getLsbD 511 = true ∧
    ({ Params.default with dpsramPages := 1#512 <<< 511 } : Params).valid = true := by and_intros <;> decide +kernel

theorem witness_WriteIsSeenByEitherBus :
    routed ready.cfg .ibus 0x42000010#32 1 ∧
    answerOf (exec (busRow .dbus .write .world0 0x3C000010#32 0 [0x55#8]) ready) = some (.ok []) ∧
    ready.dev.dcache.cstate = .enabled ∧ Memory.wf (ready.store .flash) = true ∧
    0x30010 + 1 ≤ storeSize ready.cfg .flash ∧ flashCrypted ready.cfg 0x30010 = false ∧
    translate ready.cfg .dcache 0x3C000010#32 ready.dev = .at .flash 0x30010 ∧
    translate ready.cfg .icache 0x42000010#32 ready.dev = .at .flash 0x30010 ∧
    pmsAllows ready.dev.ipms .world0 .fetch 0 = true ∧ ready.dev.icache.cstate = .enabled ∧
    ready.dev.icache.shut = false := by
  and_intros <;> decide +kernel

theorem witness_LockedPagesStayResident :
    ((readyD fun x => CacheState.setLock { x with resident := 0x7#512 } .s0
      ({ LockSection.reset with ena := true, range := { start := 0x3C001000#32, size := 0x1000#32 } })).dev.dcache.lock .s0).ena = true ∧
    0 ∈ pages ready.cfg .dcache { start := 0x3C001000#32, size := 0x1000#32 } ∧
    after (fun s => s.dev.residentAt .dcache 0) (exec (.dcacheInvalidate 0x1#32)
      (readyD fun x => CacheState.setLock { x with resident := 0x7#512 } .s0
        ({ LockSection.reset with ena := true, range := { start := 0x3C001000#32, size := 0x1000#32 } }))) = some true ∧
    Instr.dcacheInvalidate 0x1#32 ≠ .reset := by and_intros <;> decide +kernel

theorem witness_StoresChangeOnlyByWrites :
    after (fun s => s.byteAt .flash 0x30010) (step (readyEvent (.op (.bus 0b1001#4 0x3C000010#32 1 [0x55#8])))) =
      some 0x55#8 ∧ ready.byteAt .flash 0x30010 = 0x11#8 := by and_intros <;> decide +kernel

theorem witness_PageSectionFollowsTheBoundaries :
    4 < 8 ∧ ({ ready.dev.dpms with bound0 := 4#12, bound1 := 8#12, bound2 := 16#12 } : PmsTable).bound0.toNat = 4 ∧
    ∀ q ∈ [(3, some PmsSec.k0), (4, some .k1), (7, some .k1), (8, some .k2), (15, some .k2), (16, none)],
      pmsSection { ready.dev.dpms with bound0 := 4#12, bound1 := 8#12, bound2 := 16#12 } q.1 = q.2 := by
  and_intros <;> decide +kernel

/-- World 1 may only write in a section with attribute 0x20 (30_encoding R72). -/
theorem test_attribute_bits :
    pmsAllows { ready.dev.dpms with attr0 := 0x20#8 } .world1 .write 0 = true ∧
    pmsAllows { ready.dev.dpms with attr0 := 0x20#8 } .world1 .read 0 = false ∧
    pmsAllows { ready.dev.dpms with attr0 := 0x20#8 } .world0 .write 0 = false := by and_intros <;> decide +kernel

theorem witness_RangePagesAreTheTouchedOnes :
    0x3C000000 ≤ (0x3C01FFFF#32).toNat ∧ (0x3C01FFFF#32).toNat + (0x2#32).toNat ≤ 0x3C000000 + 33554432 ∧
    pages ready.cfg .dcache { start := 0x3C01FFFF#32, size := 0x2#32 } = [1, 2] := by and_intros <;> decide +kernel

end Sys2Proof.Tests
end

section
/-! Proofs of the state family (10_state): what the register map leaves unmapped (R48). -/

namespace Sys2Proof.Machine

/-! ## Where the registers lie -/

/-- The last register of a per-cache block is PMS_LOCK at 0x68 (10_state R31). -/
theorem blockRel_toNat_le (r : BlockReg) : (blockRel r).toNat ≤ 0x068 := by
  cases r with
  | lockAddr s | lockSize s | autoloadAddr s | autoloadSize s => cases s <;> decide
  | pmsBoundary k | pmsAttr k => cases k <;> decide
  | _ => decide

/-- The MMU window begins at 0x800 (10_state R47). -/
theorem le_mmuOffset_toNat (i : BitVec 9) : 0x800 ≤ (mmuOffset i).toNat := by
  simp only [mmuOffset, BitVec.toNat_append, Nat.shiftLeft_eq]
  calc 0x800 = (1#1).toNat * 2 ^ 9 * 2 ^ 2 := rfl
    _ ≤ ((1#1).toNat * 2 ^ 9 ||| i.toNat) * 2 ^ 2 := Nat.mul_le_mul_right _ Nat.left_le_or
    _ ≤ _ := Nat.left_le_or

/-- Every register lies in one of the four parts of the register map: the DCACHE block, the ICACHE block, the shared
block or the MMU window (10_state R31, R47). -/
theorem regOffset_toNat_mem_map (r : Reg) :
    (regOffset r).toNat ≤ 0x068 ∨ (0x080 ≤ (regOffset r).toNat ∧ (regOffset r).toNat ≤ 0x0E8) ∨
      (0x100 ≤ (regOffset r).toNat ∧ (regOffset r).toNat ≤ 0x10C) ∨ 0x800 ≤ (regOffset r).toNat := by
  cases r with
  | block c r =>
    have hr := blockRel_toNat_le r
    cases c with
    | dcache => exact .inl hr
    | icache =>
      have hsum : (0x080#12 + blockRel r).toNat = 0x080 + (blockRel r).toNat := by
        rw [BitVec.toNat_add_of_lt (by simp only [BitVec.toNat_ofNat]; omega)]
        rfl
      simp only [regOffset, blockOffset, hsum]
      omega
  | mmuEntry i => exact .inr (.inr (.inr (le_mmuOffset_toNat i)))
  | intSt | intEna | faultVaddr | faultInfo => decide

/-- An aligned offset between the parts of the register map names no register (10_state R48). -/
theorem regAt_eq_none_of_unmapped {off : BitVec 12} (ha : alignedOffset off = true)
    (hgap : (0x068 < off.toNat ∧ off.toNat < 0x080) ∨ (0x0E8 < off.toNat ∧ off.toNat < 0x100) ∨
      (0x10C < off.toNat ∧ off.toNat < 0x800)) : regAt off = none := by
  cases hreg : regAt off with
  | none => rfl
  | some r =>
    have hmap := regOffset_toNat_mem_map r
    rw [← regOffset_of_regAt hreg ha] at hmap
    omega

/-! ## The register port at an aligned offset -/

/-- Every meaning of a register read row is the read of its register. -/
theorem exec_read {i : Instr} {off : BitVec 12} (he : encode i = .rd 32 off)
    (ha : alignedOffset off = true) (s : State) :
    exec i s = .next (s.commit s.dev (.word (readReg (regAt off) s.dev))) := by
  rw [exec_eq_run, he]
  simp only [runTransaction, ha, if_true]

/-- Settles O15: the offset names no register (`regAt_eq_none_of_unmapped`), so the read value is 0 and the write
leaves the device as it is. -/
theorem unmappedOffsetReadsZeroIgnoresWrites : Obligations.UnmappedOffsetReadsZeroIgnoresWrites := by
  intro s off v haligned hgap
  have ha : alignedOffset off = true := (alignedOffset_iff off).2 haligned
  have hnone : regAt off = none := regAt_eq_none_of_unmapped ha hgap
  constructor
  · rw [exec_read rfl ha, hnone]
    rfl
  · rw [exec_write rfl ha, hnone]
    rfl

end Sys2Proof.Machine
end

section
/-! Proofs of the memory family (20_memory): the register transactions the block refuses (R54). -/

namespace Sys2Proof.Machine

/-- A register transaction that breaks the width or the alignment rule is rejected, whichever row it would name
(20_memory R54). -/
theorem checkRegister_eq_error {width : Nat} {off : BitVec 12} (hbad : width ≠ 32 ∨ off.toNat % 4 ≠ 0) (i : Instr) :
    ∃ r, checkRegister width off i = .error r := by
  by_cases hwidth : width = 32
  case neg => exact ⟨.registerWidth, if_pos hwidth⟩
  case pos =>
    have hoff : off.toNat % 4 ≠ 0 := hbad.resolve_left (not_not_intro hwidth)
    have hna : ¬ alignedOffset off = true := mt (alignedOffset_iff off).1 hoff
    exact ⟨.unalignedOffset, by rw [checkRegister, if_neg (not_not_intro hwidth), if_neg hna]⟩

/-- A step refuses the transaction the decoder rejects, with the decoder's reason. -/
theorem step_of_decode_error {s : State} {t : Transaction} {r : Reject} (hv : s.cfg.valid = true)
    (hf : fetch s = some (.op t)) (hd : decode t = .error r) : step s = .refused (.rejected r) := by
  simp only [step, hv, if_true, hf, hd]

/-- Settles O5: the decoder checks a read and a write alike before it names their row (`checkRegister_eq_error`), and
the step refuses what the decoder rejects. -/
theorem unalignedOrNarrowRegisterTransactionRefused : Obligations.UnalignedOrNarrowRegisterTransactionRefused := by
  intro s width off v hbad hv
  constructor
  · intro hf
    obtain ⟨r, hr⟩ := checkRegister_eq_error hbad (readRow (regAt off) off)
    exact ⟨.rejected r, step_of_decode_error hv hf hr⟩
  · intro hf
    obtain ⟨r, hr⟩ := checkRegister_eq_error hbad (writeRow (regAt off) off v)
    exact ⟨.rejected r, step_of_decode_error hv hf hr⟩

end Sys2Proof.Machine
end

section
/-! Proofs of the encoding family (30_encoding): the packed content of a permission fault (R71), and the access that
latches it (60_exceptions R138). -/

namespace Sys2Proof.Machine

/-! ## The packed content -/

/-- Concatenation as arithmetic: the left word stands above the `n` bits of the right one. -/
theorem toNat_append_eq_mul_add {m n : Nat} (x : BitVec m) (y : BitVec n) :
    (x ++ y).toNat = x.toNat * 2 ^ n + y.toNat := by
  rw [BitVec.toNat_append, ← Nat.shiftLeft_add_eq_or_of_lt y.isLt, Nat.shiftLeft_eq]

/-- The number of a world (30_encoding R68). -/
def worldNumber : World → Nat
  | .world0 => 0
  | .world1 => 1

/-- The fields of a permission fault's content as one number: the world in bit 0, the attribute from bit 1, the class
from bit 4, the section from bit 6, the bus in bit 8 (30_encoding R71). -/
theorem toNat_append_contentFields (bus world : BitVec 1) (sect cls : BitVec 2) (a : BitVec 3) :
    (0#1 ++ bus ++ sect ++ cls ++ a ++ world).toNat =
      world.toNat + 2 * a.toNat + 16 * cls.toNat + 64 * sect.toNat + 256 * bus.toNat := by
  simp only [toNat_append_eq_mul_add, BitVec.toNat_ofNat]
  omega

/-- The content of a permission fault as a number (30_encoding R71). -/
theorem pmsContent_toNat (w : World) (a : BitVec 3) (k : AccessClass) (sect : Option PmsSec) (b : Bus) :
    (pmsContent w a k sect b).toNat =
      worldNumber w + 2 * a.toNat + 16 * classNumber k + 64 * (sectNumber sect).toNat +
        256 * (if b = .ibus then 0 else 1) := by
  cases w <;> cases k <;> cases b <;> exact toNat_append_contentFields ..

/-! ## The rejected access -/

/-- A page in no section is rejected, whatever the world and the class (43_permission_gate R104). -/
theorem pmsAllows_of_pmsSection_none {t : PmsTable} {q : Nat} (h : pmsSection t q = none) (w : World)
    (k : AccessClass) : pmsAllows t w k q = false := by
  simp only [pmsAllows, pmsAttrOf, h, BitVec.getLsbD_zero]

/-- In a section, the class's bit of the world's attribute decides (43_permission_gate R104). -/
theorem pmsAllows_of_pmsSection_some {t : PmsTable} {q : Nat} {j : PmsSec} (h : pmsSection t q = some j) (w : World)
    (k : AccessClass) : pmsAllows t w k q = (worldAttr (t.attr j) w).getLsbD (classNumber k) := by
  simp only [pmsAllows, pmsAttrOf, h]

/-- A routed access the gate rejects commits its PermissionFault, and no later stage runs (42_translation R95). -/
theorem exec_gate_rejected {s : State} {b : Bus} {k : AccessClass} {w : World} {va : Word} {len : Nat}
    {wdata : List Byte} (hr : routed s.cfg b va (accessLen k len wdata))
    (hp : pmsAllows (s.dev.pms b) w k (pageIndex s.cfg b.cache va.toNat) = false) :
    exec (busRow b k w va len wdata) s =
      .next (s.commit (pmsFault b w k va (pageIndex s.cfg b.cache va.toNat) s.dev) .permissionFault) := by
  rw [exec_busRow, busAccess_routed hr]
  simp only [gatedAccess, hp, Bool.false_eq_true, if_false]

/-- A PermissionFault changes the fault record and the status bit of its bus alone (60_exceptions R135, R138). -/
theorem pmsFault_eq (b : Bus) (w : World) (k : AccessClass) (va : Word) (q : Nat) (d : Device) :
    pmsFault b w k va q d = { d with
      faultVaddr := va, faultCode := 2#4
      faultContent := pmsContent w (pmsAttrOf (d.pms b) w q) k (pmsSection (d.pms b) q) b
      intSt := d.intSt ||| (if b = .ibus then 4#11 else 8#11) } := by
  cases b <;> rfl

/-- Settles O41: the gate rejects the page in both cases (`pmsAllows_of_pmsSection_none`,
`pmsAllows_of_pmsSection_some`), so the access commits the latch (`exec_gate_rejected`, `pmsFault_eq`), whose content
`pmsContent_toNat` gives. -/
theorem permissionFaultIsLatched : Obligations.PermissionFaultIsLatched := by
  intro s b k w va len wdata q hr hq hgate
  have hpage : pageIndex s.cfg b.cache va.toNat = q := hq.symm
  have hp : pmsAllows (s.dev.pms b) w k q = false := by
    obtain hnone | ⟨j, hsome, hbit⟩ := hgate
    · exact pmsAllows_of_pmsSection_none hnone w k
    · rw [pmsAllows_of_pmsSection_some hsome]
      cases k <;> exact hbit
  refine ⟨_, exec_gate_rejected hr (hpage ▸ hp), ?_, ?_⟩
  · rw [hpage, pmsFault_eq]
    rfl
  · rw [hpage, State.commit_dev, pmsFault_eq, pmsContent_toNat, pmsAttrOf]
    cases w <;> cases k <;> cases pmsSection (s.dev.pms b) q with
    | none => rfl
    | some j => cases j <;> rfl

end Sys2Proof.Machine
end

section
/-! Proofs of the MMU table family (41_mmu_table): the register window masks the reserved bits (R85, R86, R87), and the
index-addressed port gives back what it was given (R88, R89). -/

namespace Sys2Proof.Machine

/-! ## The word of an entry -/

/-- The word of an entry is its invalid flag above its page number, zero-extended (30_encoding R69). -/
theorem MmuEntry.encode_eq_setWidth_append (e : MmuEntry) :
    e.encode = (BitVec.ofBool e.invalid ++ e.page).setWidth 32 := by
  ext i hi
  rw [MmuEntry.encode, BitVec.getElem_or, ← BitVec.getLsbD_eq_getElem, ← BitVec.getLsbD_eq_getElem,
    getLsbD_fieldWord, getLsbD_flagWord 8 i e.invalid (by decide), BitVec.getElem_setWidth, BitVec.getLsbD_append]
  by_cases hpage : i < 8
  · simp [hpage, hi, Nat.ne_of_lt hpage]
  · have hflag : i - 8 = 0 ↔ i = 8 := by omega
    simp [hpage, hi, hflag, BitVec.getLsbD_of_ge e.page i (Nat.le_of_not_lt hpage), Bool.and_comm]

/-- The word of an entry as a number: the page number, and the invalid flag in bit 8 (30_encoding R69). -/
theorem MmuEntry.toNat_encode (e : MmuEntry) :
    e.encode.toNat = e.page.toNat + 256 * e.invalid.toNat := by
  have hpage := e.page.isLt
  have hinvalid := e.invalid.toNat_le
  rw [MmuEntry.encode_eq_setWidth_append, BitVec.toNat_setWidth, toNat_append_eq_mul_add, BitVec.toNat_ofBool]
  omega

/-- Storing a word as an entry keeps its bits [8:0] and no reserved bit (41_mmu_table R85). -/
theorem MmuEntry.encode_decode (v : Word) : (MmuEntry.decode v).encode = v &&& 0x1FF#32 := by
  apply BitVec.eq_of_toNat_eq
  have hpage : (v.extractLsb' 0 8).toNat = v.toNat % 256 := by simp
  have hinvalid : (v.getLsbD 8).toNat = v.toNat / 256 % 2 := Nat.toNat_testBit v.toNat 8
  calc (MmuEntry.decode v).encode.toNat
      = (v.extractLsb' 0 8).toNat + 256 * (v.getLsbD 8).toNat := MmuEntry.toNat_encode _
    _ = v.toNat % 2 ^ 9 := by omega
    _ = v.toNat &&& 0x1FF := (Nat.and_two_pow_sub_one_eq_mod v.toNat 9).symm
    _ = (v &&& 0x1FF#32).toNat := (BitVec.toNat_and v 0x1FF#32).symm

/-! ## The table after a write of one entry -/

/-- The written entry reads back. -/
theorem Device.entry_setEntry_same {i : Nat} (h : i < nEntries) (d : Device) (e : MmuEntry) :
    (d.setEntry i e).entry i = e := by
  rw [Device.entry_setEntry d i i e h, if_pos rfl]

/-- Every other entry stays. -/
theorem Device.entry_setEntry_of_ne {i j : Nat} (h : i < nEntries) (hne : j ≠ i) (d : Device) (e : MmuEntry) :
    (d.setEntry i e).entry j = d.entry j := by
  rw [Device.entry_setEntry d i j e h, if_neg hne.symm]

/-- A write of one entry changes the device in its table alone. -/
theorem Device.setEntry_eq (d : Device) (i : Nat) (e : MmuEntry) :
    d.setEntry i e = { d with mmu := (d.setEntry i e).mmu } := rfl

/-! ## The four operations -/

/-- MMU_READ answers the word of its entry (41_mmu_table R87). -/
theorem exec_mmuRead (i : BitVec 9) (s : State) :
    exec (.mmuRead i) s = .next { s with answer := .word (s.dev.entry i.toNat).encode } := by
  rfl

/-- MMU_WRITE stores the entry its word decodes to (41_mmu_table R86). -/
theorem exec_mmuWrite (i : BitVec 9) (v : Word) (s : State) :
    exec (.mmuWrite i v) s = .next (s.commit (s.dev.setEntry i.toNat (MmuEntry.decode v)) .nothing) := by
  rfl

/-- MMU_GET of an index below 512 answers the entry (41_mmu_table R89). -/
theorem exec_mmuGet_of_lt {index : Nat} (h : index < nEntries) (s : State) :
    exec (.mmuGet index) s =
      .next { s with answer := .entry (s.dev.entry index).page (s.dev.entry index).invalid } :=
  if_neg (Nat.not_le_of_lt h)

/-- MMU_GET of any other index answers OutOfRange (41_mmu_table R89). -/
theorem exec_mmuGet_of_le {index : Nat} (h : nEntries ≤ index) (s : State) :
    exec (.mmuGet index) s = .next { s with answer := .outOfRange } :=
  if_pos h

/-- MMU_SET of an index below 512 stores the pair (41_mmu_table R88). -/
theorem exec_mmuSet_of_lt {index : Nat} (h : index < nEntries) (page : BitVec 8) (invalid : Bool) (s : State) :
    exec (.mmuSet index page invalid) s =
      .next (s.commit (s.dev.setEntry index { page := page, invalid := invalid }) (.ok [])) :=
  if_neg (Nat.not_le_of_lt h)

/-- MMU_SET of any other index answers OutOfRange (41_mmu_table R88). -/
theorem exec_mmuSet_of_le {index : Nat} (h : nEntries ≤ index) (page : BitVec 8) (invalid : Bool) (s : State) :
    exec (.mmuSet index page invalid) s = .next { s with answer := .outOfRange } :=
  if_pos h

/-! ## The obligations -/

/-- Settles O17: the index of the window is below 512, so the entry written is the one read
(`Device.entry_setEntry_same`); its word is the written one without its reserved bits (`MmuEntry.encode_decode`). -/
theorem mmuWindowMasksReservedBits : Obligations.MmuWindowMasksReservedBits := by
  intro s i v
  have hi : i.toNat < nEntries := i.isLt
  have hentry := Device.entry_setEntry_same hi s.dev (MmuEntry.decode v)
  refine ⟨_, exec_mmuWrite i v s, ?frame, hentry, ?others, ?readBack, _, exec_mmuRead i s, MmuEntry.toNat_encode _⟩
  case frame => exact congrArg (s.commit · .nothing) (Device.setEntry_eq ..)
  case others => exact fun j hne => Device.entry_setEntry_of_ne hi hne s.dev _
  case readBack => rw [exec_mmuRead, State.commit_dev, hentry, MmuEntry.encode_decode]

/-- Settles O18: below 512 the port reads the entry it stored (`Device.entry_setEntry_same`); from 512 on both
operations take their OutOfRange branch. -/
theorem mmuPortRoundTrip : Obligations.MmuPortRoundTrip := by
  intro s index page invalid
  constructor
  · intro hlt
    have hentry := Device.entry_setEntry_same hlt s.dev { page := page, invalid := invalid }
    refine ⟨_, exec_mmuSet_of_lt hlt page invalid s, ?frame, ?readBack, ?others, exec_mmuGet_of_lt hlt s⟩
    case frame => exact congrArg (s.commit · (.ok [])) (Device.setEntry_eq ..)
    case readBack => rw [exec_mmuGet_of_lt hlt, State.commit_dev, hentry]
    case others => exact fun j hne => Device.entry_setEntry_of_ne hlt hne s.dev _
  · intro hle
    exact ⟨exec_mmuSet_of_le hle page invalid s, exec_mmuGet_of_le hle s⟩

end Sys2Proof.Machine
end

section
/-! Proofs of the permission gate family (43_permission_gate): which section holds a page (R103), and the write of a
boundary while the table is unlocked and while it is locked (R105). -/

namespace Sys2Proof.Machine

/-! ## The section of a page -/

/-- Section k of a permission table holds the pages below boundary k and not below an earlier boundary; no section holds
a page below no boundary (43_permission_gate R103). `pmsSection_eq_iff` ties it to the model. -/
def PmsTable.HoldsPage (t : PmsTable) (q : Nat) : Option PmsSec → Prop
  | some .k0 => q < t.bound0.toNat
  | some .k1 => t.bound0.toNat ≤ q ∧ q < t.bound1.toNat
  | some .k2 => t.bound0.toNat ≤ q ∧ t.bound1.toNat ≤ q ∧ q < t.bound2.toNat
  | none => t.bound0.toNat ≤ q ∧ t.bound1.toNat ≤ q ∧ t.bound2.toNat ≤ q

/-- The section named for a page holds it: each branch is taken where every boundary before it is passed. -/
theorem holdsPage_pmsSection (t : PmsTable) (q : Nat) : t.HoldsPage q (pmsSection t q) := by
  unfold pmsSection
  split_ifs with h0 h1 h2
  · exact h0
  · exact ⟨Nat.le_of_not_lt h0, h1⟩
  · exact ⟨Nat.le_of_not_lt h0, Nat.le_of_not_lt h1, h2⟩
  · exact ⟨Nat.le_of_not_lt h0, Nat.le_of_not_lt h1, Nat.le_of_not_lt h2⟩

/-- The section that holds a page is the one named: the first boundary above the page decides. -/
theorem pmsSection_eq_of_holdsPage {t : PmsTable} {q : Nat} :
    ∀ {o : Option PmsSec}, t.HoldsPage q o → pmsSection t q = o
  | some .k0, h0 => if_pos h0
  | some .k1, ⟨h0, h1⟩ => (if_neg h0.not_gt).trans (if_pos h1)
  | some .k2, ⟨h0, h1, h2⟩ => (if_neg h0.not_gt).trans ((if_neg h1.not_gt).trans (if_pos h2))
  | none, ⟨h0, h1, h2⟩ => (if_neg h0.not_gt).trans ((if_neg h1.not_gt).trans (if_neg h2.not_gt))

/-- A page's section is the one that holds it, for every table, its boundaries in order or not. -/
theorem pmsSection_eq_iff {t : PmsTable} {q : Nat} {o : Option PmsSec} : pmsSection t q = o ↔ t.HoldsPage q o :=
  ⟨fun h => h ▸ holdsPage_pmsSection t q, pmsSection_eq_of_holdsPage⟩

/-- Settles O56: the chain is `pmsSection_eq_of_holdsPage`; where the boundaries increase, a page from one of them on
lies from every lower one on, so `pmsSection_eq_iff` gives the four intervals. -/
theorem pageSectionFollowsTheBoundaries : Obligations.PageSectionFollowsTheBoundaries := by
  intro t q
  refine ⟨fun h0 => pmsSection_eq_of_holdsPage h0, fun h0 h1 => pmsSection_eq_of_holdsPage ⟨h0, h1⟩,
    fun h0 h1 h2 => pmsSection_eq_of_holdsPage ⟨h0, h1, h2⟩,
    fun h0 h1 h2 => pmsSection_eq_of_holdsPage ⟨h0, h1, h2⟩, ?increasing⟩
  case increasing =>
    intro h01 h12
    refine ⟨pmsSection_eq_iff, pmsSection_eq_iff, pmsSection_eq_iff.trans ?second, pmsSection_eq_iff.trans ?beyond⟩
    case second => exact ⟨And.right, fun ⟨h1, h2⟩ => ⟨h01.le.trans h1, h1, h2⟩⟩
    case beyond => exact ⟨fun ⟨_, _, h2⟩ => h2, fun h2 => ⟨(h01.trans h12).le.trans h2, h12.le.trans h2, h2⟩⟩

/-! ## The write of a boundary -/

/-- PMS_SET_BOUNDARY of every bus and section commits its effect on the device (43_permission_gate R105). -/
theorem exec_pmsBoundaryRow (b : Bus) (k : PmsSec) (v : Word) (s : State) :
    exec (pmsBoundaryRow b k v) s = .next (s.commit (pmsSetBoundary b k v s.dev) .nothing) := by
  cases b with
  | ibus | dbus => cases k <;> rfl

/-- With no lock flag set, the boundary takes bits [11:0] of the word (43_permission_gate R105). -/
theorem pmsSetBoundary_of_unlocked {b : Bus} {d : Device} (h : (d.pms b).lock = 0#3) (k : PmsSec) (v : Word) :
    pmsSetBoundary b k v d = d.setPms b ((d.pms b).setBound k (v.extractLsb' 0 12)) :=
  if_pos h

/-- With any lock flag set, the write is ignored (43_permission_gate R105). -/
theorem pmsSetBoundary_of_locked {b : Bus} {d : Device} (h : (d.pms b).lock ≠ 0#3) (k : PmsSec) (v : Word) :
    pmsSetBoundary b k v d = d :=
  if_neg h

/-- Settles O30: the row commits `pmsSetBoundary` (`exec_pmsBoundaryRow`), which the lock flags decide. -/
theorem pmsBoundaryStoredWhileUnlocked : Obligations.PmsBoundaryStoredWhileUnlocked := by
  intro s b k v
  rw [exec_pmsBoundaryRow]
  constructor
  · intro hlocked
    rw [pmsSetBoundary_of_locked hlocked]
    rfl
  · intro hunlocked
    rw [pmsSetBoundary_of_unlocked hunlocked]
    rfl

end Sys2Proof.Machine
end

section
/-! Proofs of the lock, preload and autoload family (45_lock_preload_autoload): the pages of a range (R118), PRELOAD
(R122) and INVALIDATE (R126). -/

namespace Sys2Proof.Machine

/-! ## The pages of a range -/

/-- VALID_RANGE as one decision (45_lock_preload_autoload R117). -/
theorem validRange_eq_decide (p : Params) (c : CacheId) (r : Range) :
    validRange p c r = decide (windowBase p c ≤ r.start.toNat ∧
      r.start.toNat + r.size.toNat ≤ windowBase p c + 33554432) :=
  (Bool.decide_and ..).symm

/-- The pages of a range run from the page of its first byte to the page of its last (45_lock_preload_autoload R118). -/
theorem mem_pages_iff_between {p : Params} {c : CacheId} {r : Range} {q : Nat} :
    q ∈ pages p c r ↔ r.size ≠ 0#32 ∧ (r.start.toNat - windowBase p c) / 65536 ≤ q ∧
      q ≤ (r.start.toNat + r.size.toNat - 1 - windowBase p c) / 65536 := by
  rw [mem_pages]
  exact inPages_iff

/-- From the base on, a page lies between those of the first and the last byte exactly if some byte lies in it: of such
a page the range holds the first byte, or the range starts inside it. -/
theorem between_pages_iff_exists_byte {base start size q : Nat} (hbase : base ≤ start) :
    (size ≠ 0 ∧ (start - base) / 65536 ≤ q ∧ q ≤ (start + size - 1 - base) / 65536) ↔
      ∃ x, start ≤ x ∧ x < start + size ∧ q = (x - base) / 65536 := by
  constructor
  · rintro ⟨hsize, hfirst, hlast⟩
    by_cases hin : start ≤ base + q * 65536
    · exact ⟨base + q * 65536, hin, by omega, by omega⟩
    · exact ⟨start, le_rfl, by omega, by omega⟩
  · rintro ⟨x, hstart, hend, rfl⟩
    exact ⟨by omega, Nat.div_le_div_right (by omega), Nat.div_le_div_right (by omega)⟩

/-- Settles O58: the interval is `mem_pages_iff_between`, its bytes are `between_pages_iff_exists_byte`. -/
theorem rangePagesAreTheTouchedOnes : Obligations.RangePagesAreTheTouchedOnes := by
  intro p c r q base hbase hstart _
  rw [← windowBase_eq] at hbase
  subst hbase
  have hsize : r.size ≠ 0#32 ↔ r.size.toNat ≠ 0 := (BitVec.toNat_ne_iff_ne).symm
  refine ⟨mem_pages_iff_between, ?bytes⟩
  case bytes =>
    rw [mem_pages_iff_between, hsize]
    exact between_pages_iff_exists_byte hstart

/-! ## INVALIDATE -/

/-- The INVALIDATE row of either cache commits the write of SYNC_CTRL (45_lock_preload_autoload R126). -/
theorem exec_invalidateRow (c : CacheId) (v : Word) (s : State) :
    exec (invalidateRow c v) s = .next (s.commit (writeSyncCtrl s.cfg c v s.dev) .nothing) := by
  cases c <;> rfl

/-- A write of SYNC_CTRL with INVALIDATE_ENA set runs INVALIDATE (10_state R38). -/
theorem writeSyncCtrl_of_enable {v : Word} (hv : v.getLsbD 0 = true) (p : Params) (c : CacheId) (d : Device) :
    writeSyncCtrl p c v d = cmdInvalidate p c d :=
  if_pos hv

/-- INVALIDATE changes the device in the residency and the DONE bit of its cache alone (45_lock_preload_autoload R126). -/
theorem cmdInvalidate_eq (p : Params) (c : CacheId) (d : Device) :
    cmdInvalidate p c d = d.setCache c
      { d.cache c with resident := ((cmdInvalidate p c d).cache c).resident, invalDone := true } := by
  rw [cmdInvalidate, Device.cache_setCache_same]

/-- After INVALIDATE the resident pages are those that were and are pinned (45_lock_preload_autoload R119, R126). -/
theorem residentAt_cmdInvalidate (p : Params) (c : CacheId) (d : Device) (q : Nat) :
    (cmdInvalidate p c d).residentAt c q = true ↔ d.residentAt c q = true ∧
      ∃ k, ((d.cache c).lock k).ena = true ∧ q ∈ pages p c ((d.cache c).lock k).range := by
  rw [← pinned_iff, cmdInvalidate, Device.residentAt, Device.cache_setCache_same, getLsbD_dropUnpinned,
    Bool.and_eq_true, Device.residentAt]

/-- Settles O24: the row runs `cmdInvalidate` in every cache state; its pages are `residentAt_cmdInvalidate`. -/
theorem invalidateKeepsPinnedPages : Obligations.InvalidateKeepsPinnedPages := by
  intro s c v hv
  refine ⟨s.commit (cmdInvalidate s.cfg c s.dev) .nothing, ?completes, ?frame, residentAt_cmdInvalidate s.cfg c s.dev⟩
  case completes => rw [exec_invalidateRow, writeSyncCtrl_of_enable hv]
  case frame => exact congrArg (s.commit · .nothing) (cmdInvalidate_eq ..)

/-! ## PRELOAD -/

/-- The range that PRELOAD_ADDR and PRELOAD_SIZE configure (10_state R35). -/
def CacheState.preloadRange (x : CacheState) : Range :=
  { start := x.preloadAddr, size := x.preloadSize }

/-- The PRELOAD row of either cache commits the write of PRELOAD_CTRL (45_lock_preload_autoload R122). -/
theorem exec_preloadRow (c : CacheId) (v : Word) (s : State) :
    exec (preloadRow c v) s = .next (s.commit (writePreloadCtrl s.cfg c v s.dev) .nothing) := by
  cases c <;> rfl

/-- A write of PRELOAD_CTRL with PRELOAD_ENA set runs PRELOAD on the stored order (10_state R36). -/
theorem writePreloadCtrl_of_enable {v : Word} (hv : v.getLsbD 0 = true) (p : Params) (c : CacheId) (d : Device) :
    writePreloadCtrl p c v d = cmdPreload p c (d.setCache c { d.cache c with preloadOrder := v.getLsbD 2 }) :=
  if_pos hv

section
variable {p : Params} {c : CacheId} {d : Device}

/-- PRELOAD of a valid range in Enabled loads its pages and sets DONE (45_lock_preload_autoload R122). -/
theorem cmdPreload_of_enabled (hr : validRange p c (d.cache c).preloadRange = true)
    (he : (d.cache c).cstate = .enabled) :
    cmdPreload p c d = d.setCache c { d.cache c with
      resident := loadPages (d.cache c).resident
        (pagesInOrder p c (d.cache c).preloadOrder (d.cache c).preloadRange)
      preloadDone := true } :=
  (if_pos hr).trans (if_pos he)

/-- PRELOAD of a valid range in Disabled or Frozen sets DONE and loads nothing (45_lock_preload_autoload R122). -/
theorem cmdPreload_of_not_enabled (hr : validRange p c (d.cache c).preloadRange = true)
    (he : (d.cache c).cstate ≠ .enabled) :
    cmdPreload p c d = d.setCache c { d.cache c with preloadDone := true } :=
  (if_pos hr).trans (if_neg he)

/-- PRELOAD of an invalid range clears DONE and reports the range (45_lock_preload_autoload R122). -/
theorem cmdPreload_of_invalid (hr : validRange p c (d.cache c).preloadRange = false) :
    cmdPreload p c d = setStatus (cfgRangeBit c) (d.setCache c { d.cache c with preloadDone := false }) :=
  if_neg (Bool.eq_false_iff.1 hr)

end

/-- The residency of a cache after PRELOAD: the pages of a valid range are loaded in Enabled, and none is evicted
(45_lock_preload_autoload R122). `cmdPreload_eq` ties it to the model. -/
def preloadResident (p : Params) (c : CacheId) (x : CacheState) : BitVec 512 :=
  if validRange p c x.preloadRange = true ∧ x.cstate = .enabled then
    loadPages x.resident (pagesInOrder p c x.preloadOrder x.preloadRange)
  else x.resident

/-- The status bits after PRELOAD: an invalid range sets the configuration-range bit (45_lock_preload_autoload R122,
60_exceptions R140). `cmdPreload_eq` ties it to the model. -/
def preloadStatus (p : Params) (c : CacheId) (d : Device) : BitVec 11 :=
  if validRange p c (d.cache c).preloadRange = true then d.intSt else d.intSt ||| (1#11 <<< cfgRangeBit c)

/-- PRELOAD changes the residency and the DONE bit of its cache and the status bits, and nothing else of the device
(45_lock_preload_autoload R122). -/
theorem cmdPreload_eq (p : Params) (c : CacheId) (d : Device) :
    cmdPreload p c d =
      { d.setCache c { d.cache c with
          resident := preloadResident p c (d.cache c)
          preloadDone := validRange p c (d.cache c).preloadRange } with
        intSt := preloadStatus p c d } := by
  cases hr : validRange p c (d.cache c).preloadRange with
  | false =>
    simp only [cmdPreload_of_invalid hr, preloadResident, preloadStatus, hr, Bool.false_eq_true, false_and, if_false]
    cases c <;> rfl
  | true =>
    by_cases he : (d.cache c).cstate = .enabled
    · simp only [cmdPreload_of_enabled hr he, preloadResident, preloadStatus, hr, he, and_self, if_true]
      cases c <;> rfl
    · simp only [cmdPreload_of_not_enabled hr he, preloadResident, preloadStatus, hr, he, and_false, if_true, if_false]
      cases c <;> rfl

/-- A page is resident after PRELOAD exactly if it was, or the loaded range touches it. -/
theorem getLsbD_preloadResident (p : Params) (c : CacheId) (x : CacheState) (q : Nat) :
    (preloadResident p c x).getLsbD q = true ↔ x.resident.getLsbD q = true ∨
      (q < 512 ∧ validRange p c x.preloadRange = true ∧ x.cstate = .enabled ∧ q ∈ pages p c x.preloadRange) := by
  unfold preloadResident
  split_ifs with h
  · rw [getLsbD_loadRange, mem_pages, Bool.or_eq_true, Bool.and_eq_true, decide_eq_true_iff]
    exact or_congr_right ⟨fun ⟨hq, hlt⟩ => ⟨hlt, h.1, h.2, hq⟩, fun ⟨hlt, _, _, hq⟩ => ⟨hq, hlt⟩⟩
  · exact ⟨Or.inl, fun hq => hq.resolve_right fun ⟨_, hr, he, _⟩ => h ⟨hr, he⟩⟩

/-- The configuration-range bit is bit 4 for ICACHE and bit 5 for DCACHE (10_state R44). -/
theorem cfgRangeBit_eq (c : CacheId) : cfgRangeBit c = if c = .icache then 4 else 5 := by
  cases c <;> rfl

/-- The configuration-range bit is one of the eleven status bits (10_state R44). -/
theorem cfgRangeBit_lt (c : CacheId) : cfgRangeBit c < 11 := by
  cases c <;> decide

/-- An invalid range sets the configuration-range bit of the cache, and no other bit changes. -/
theorem getLsbD_preloadStatus (p : Params) (c : CacheId) (d : Device) (n : Nat) :
    (preloadStatus p c d).getLsbD n = (d.intSt.getLsbD n ||
      (!validRange p c (d.cache c).preloadRange && decide (n = cfgRangeBit c))) := by
  unfold preloadStatus
  split_ifs with hr
  · rw [hr, Bool.not_true, Bool.false_and, Bool.or_false]
  · rw [getLsbD_status _ _ _ (cfgRangeBit_lt c), eq_false_of_ne_true hr, Bool.not_false, Bool.true_and]

/-- Settles O23: the row stores the order and runs `cmdPreload`, whose whole effect is `cmdPreload_eq`; its pages are
`getLsbD_preloadResident` with `mem_pages_iff_between`, its status bits `getLsbD_preloadStatus`. -/
theorem preloadLoadsItsPages : Obligations.PreloadLoadsItsPages := by
  intro s c v fits hv hfits
  have hvalid : validRange s.cfg c (s.dev.cache c).preloadRange = fits := (validRange_eq_decide ..).trans hfits.symm
  rw [exec_preloadRow, writePreloadCtrl_of_enable hv, cmdPreload_eq, Device.cache_setCache_same]
  refine ⟨_, rfl, ?frame, ?pages, ?status⟩
  case frame =>
    rw [← hvalid]
    cases c <;> rfl
  case pages =>
    intro q
    rw [← hvalid]
    have hpages := getLsbD_preloadResident s.cfg c { s.dev.cache c with preloadOrder := v.getLsbD 2 } q
    rw [mem_pages_iff_between] at hpages
    cases c <;> exact hpages
  case status =>
    intro n
    rw [State.commit_dev, getLsbD_preloadStatus, cfgRangeBit_eq, ← hvalid, Device.cache_setCache_same,
      Device.setCache_intSt]
    rfl

end Sys2Proof.Machine
end

section
/-! Proofs of the access counter family (46_access_counters): what a completed access counts (R129, R130), CNT_CLR (R131)
and the counter reads (R132). -/

namespace Sys2Proof.Machine

/-! ## RECORD -/

section
variable (c : CacheId) (d : Device) (n : Nat)

/-- SAT_INC of `acs_cnt` sets the overflow bit of its cache where the counter stood at CNT_MAX (46_access_counters
R129). -/
theorem getLsbD_countAccess : (countAccess c d).intSt.getLsbD n =
    (d.intSt.getLsbD n || decide (n = acsOvfBit c ∧ (d.cache c).acsCnt = cntMax)) := by
  rw [countAccess, getLsbD_satStatus _ _ _ _ (by cases c <;> decide), Device.setCache_intSt]

/-- SAT_INC of `miss_cnt` sets the overflow bit of its cache where the counter stood at CNT_MAX (46_access_counters
R129). -/
theorem getLsbD_countMiss : (countMiss c d).intSt.getLsbD n =
    (d.intSt.getLsbD n || decide (n = missOvfBit c ∧ (d.cache c).missCnt = cntMax)) := by
  rw [countMiss, getLsbD_satStatus _ _ _ _ (by cases c <;> decide), Device.setCache_intSt]

/-- SAT_INC of `psram_miss_cnt` sets DCACHE's overflow bit where the counter stood at CNT_MAX (46_access_counters
R129). -/
theorem getLsbD_countPsramMiss : (countPsramMiss d).intSt.getLsbD n =
    (d.intSt.getLsbD n || decide (n = psramMissOvfBit ∧ d.dcache.psramMissCnt = cntMax)) := by
  rw [countPsramMiss, getLsbD_satStatus _ _ _ _ (by decide), Device.setCache_intSt]

/-- Counting an access leaves the two miss counters of its cache. -/
theorem countAccess_missCnts : ((countAccess c d).cache c).missCnt = (d.cache c).missCnt ∧
    ((countAccess c d).cache c).psramMissCnt = (d.cache c).psramMissCnt := by
  rw [countAccess, satStatus_cache, Device.cache_setCache_same]
  exact ⟨rfl, rfl⟩

end

/-- The status bits RECORD sets: the overflow bit of each counter it would move past CNT_MAX, a miss counting in ICACHE's
counter or in DCACHE's of the store (46_access_counters R130). -/
theorem getLsbD_record (c : CacheId) (hit : Bool) (st : StoreId) (d : Device) (n : Nat) :
    (record c hit st d).intSt.getLsbD n = true ↔ d.intSt.getLsbD n = true ∨
      ((d.cache c).acsCnt = cntMax ∧ n = acsOvfBit c) ∨
      (hit = false ∧ (c = .icache ∨ st = .flash) ∧ (d.cache c).missCnt = cntMax ∧ n = missOvfBit c) ∨
      (hit = false ∧ c = .dcache ∧ st = .psram ∧ (d.cache c).psramMissCnt = cntMax ∧ n = psramMissOvfBit) := by
  obtain ⟨hmiss, hpsram⟩ := countAccess_missCnts c d
  cases hit with
  | true => simp [record, getLsbD_countAccess, and_comm]
  | false =>
    cases c with
    | icache => simp [record, getLsbD_countMiss, getLsbD_countAccess, hmiss, and_comm, or_assoc]
    | dcache =>
      cases st with
      | flash => simp [record, getLsbD_countMiss, getLsbD_countAccess, hmiss, and_comm, or_assoc]
      | psram =>
        have hcount : (countAccess .dcache d).dcache.psramMissCnt = (d.cache .dcache).psramMissCnt := hpsram
        simp [record, getLsbD_countPsramMiss, getLsbD_countAccess, hcount, and_comm, or_assoc]

/-! ## The account of a completed access -/

section
variable {p : Params} {c : CacheId} {va : Word} {st : StoreId} {d : Device} {hit : Bool}

/-- The status bits after a completed access are those RECORD leaves: fill and autoload set none. -/
theorem account_intSt (hh : hit = (d.cache c).resident.getLsbD (pageIndex p c va.toNat)) :
    (account p c va st d).intSt = (record c hit st d).intSt :=
  (congrArg Device.intSt (account_eq p c va st d hit hh)).trans (Device.setCache_intSt ..)

/-- The cache of a completed access is as RECORD leaves it, but for its residency. -/
theorem account_cache_same (hh : hit = (d.cache c).resident.getLsbD (pageIndex p c va.toNat)) :
    (account p c va st d).cache c =
      { (record c hit st d).cache c with resident := ((account p c va st d).cache c).resident } :=
  (congrArg (Device.cache · c) (account_eq p c va st d hit hh)).trans (Device.cache_setCache_same ..)

/-- The counters of both caches after a completed access: those of its cache as `record_counts` says, those of the other
as they were (46_access_counters R130). -/
theorem account_counts (hh : hit = (d.cache c).resident.getLsbD (pageIndex p c va.toNat)) (c' : CacheId) :
    ((account p c va st d).cache c').acsCnt =
      (if c' = c then satInc (d.cache c').acsCnt else (d.cache c').acsCnt) ∧
    ((account p c va st d).cache c').missCnt =
      (if c' = c ∧ hit = false ∧ (c' = .icache ∨ st = .flash) then satInc (d.cache c').missCnt
       else (d.cache c').missCnt) ∧
    ((account p c va st d).cache c').psramMissCnt =
      (if c' = c ∧ hit = false ∧ c' = .dcache ∧ st = .psram then satInc (d.cache c').psramMissCnt
       else (d.cache c').psramMissCnt) := by
  by_cases hc : c' = c
  case pos =>
    subst hc
    simp only [true_and, if_true]
    rw [account_cache_same hh]
    exact record_counts c' hit st d
  case neg =>
    rw [(CacheOnly.account p c va st d).other c' hc]
    simp only [hc, false_and, if_false, and_self]

end

/-- Settles O46: the access that answers Ok is the completed one (`bus_completed`), whose counters are `account_counts`
under `satInc_toNat`, and whose status bits are RECORD's (`account_intSt`, `getLsbD_record`). -/
theorem completedAccessCounts : Obligations.CompletedAccessCounts := by
  intro s t b k w va len wdata data st off hit q hexec hok hq htrans hhit
  obtain ⟨st', off', _, _, htrans', _, rfl⟩ := bus_completed hexec hok
  obtain ⟨rfl, rfl⟩ : st = st' ∧ off = off' := Translated.at.inj (htrans.symm.trans htrans')
  have hh : hit = (s.dev.cache b.cache).resident.getLsbD (pageIndex s.cfg b.cache va.toNat) := by
    rw [hhit, hq]
    rfl
  rw [completeAccess_dev]
  have hcounts := account_counts (st := st) hh
  refine ⟨fun c => ?acs, fun c => ?miss, fun c => ?psramMiss, fun n => ?status⟩
  case acs =>
    obtain ⟨hacs, _, _⟩ := hcounts c
    rw [hacs, apply_ite BitVec.toNat, satInc_toNat]
  case miss =>
    obtain ⟨_, hmiss, _⟩ := hcounts c
    rw [hmiss, apply_ite BitVec.toNat, satInc_toNat]
  case psramMiss =>
    obtain ⟨_, _, hpsram⟩ := hcounts c
    rw [hpsram, apply_ite BitVec.toNat, satInc_toNat]
  case status =>
    rw [account_intSt hh, getLsbD_record]
    cases b with
    | ibus => simp [Bus.cache, Device.cache, cntMax, acsOvfBit, missOvfBit]
    | dbus => simp [Bus.cache, Device.cache, cntMax, acsOvfBit, missOvfBit, psramMissOvfBit]

/-! ## CNT_CLR -/

/-- The CNT_CLR row of either cache commits the write of CNT_CTRL (46_access_counters R131). -/
theorem exec_cntClrRow (c : CacheId) (v : Word) (s : State) :
    exec (cntClrRow c v) s = .next (s.commit (writeCntCtrl c v s.dev) .nothing) := by
  cases c <;> rfl

/-- A write of CNT_CTRL with CNT_CLR set runs CNT_CLR (10_state R39). -/
theorem writeCntCtrl_of_clear {v : Word} (hv : v.getLsbD 0 = true) (c : CacheId) (d : Device) :
    writeCntCtrl c v d = cmdCntClr c d :=
  if_pos hv

/-- Settles O27: the row runs `cmdCntClr`, which replaces the three counters of its cache alone. -/
theorem counterClearClearsOneCache : Obligations.CounterClearClearsOneCache := by
  intro s c v hv
  rw [exec_cntClrRow, writeCntCtrl_of_clear hv]
  rfl

/-! ## The counter reads -/

section
variable (c : CacheId) (s : State)

/-- ACS_CNT_READ of either cache answers its access counter (46_access_counters R132). -/
theorem exec_acsReadRow : exec (acsReadRow c) s = .next { s with answer := .word (s.dev.cache c).acsCnt } := by
  cases c <;> rfl

/-- MISS_CNT_READ of either cache answers its miss counter (46_access_counters R132). -/
theorem exec_missReadRow : exec (missReadRow c) s = .next { s with answer := .word (s.dev.cache c).missCnt } := by
  cases c <;> rfl

/-- PSRAM_MISS_CNT_READ of either cache answers its PSRAM miss counter (46_access_counters R132). -/
theorem exec_psramMissReadRow :
    exec (psramMissReadRow c) s = .next { s with answer := .word (s.dev.cache c).psramMissCnt } := by
  cases c <;> rfl

end

/-- Settles O28: each read is its row's lemma; ICACHE's PSRAM miss counter is 0 by the invariant (10_state R26). -/
theorem counterReadsAnswerTheCounters : Obligations.CounterReadsAnswerTheCounters := by
  intro s c
  refine ⟨exec_acsReadRow c s, exec_missReadRow c s, exec_psramMissReadRow c s, fun hinv => ?icachePsram⟩
  case icachePsram =>
    have hzero : (s.dev.cache .icache).psramMissCnt = 0#32 := hinv.ipsramCount
    have hread := exec_psramMissReadRow .icache s
    rw [hzero] at hread
    exact hread

end Sys2Proof.Machine
end

section
/-! Proofs of the exceptions family (60_exceptions): the status bits and their acknowledgement (R145), the enables and the
line (R144, R146), the fault record (R136), and the access that latches a TranslationFault (R137). -/

namespace Sys2Proof.Machine

/-! ## The status bits and the line -/

/-- INT_CLR commits the clearing of the status bits (60_exceptions R145). -/
theorem exec_intClr (v : Word) (s : State) :
    exec (.intClr v) s = .next (s.commit (clearStatus v s.dev) .nothing) := by
  rfl

/-- INT_ENA commits the write of the enables (60_exceptions R146). -/
theorem exec_intEna (v : Word) (s : State) :
    exec (.intEna v) s = .next (s.commit (writeIntEna v s.dev) .nothing) := by
  rfl

/-- A status bit stays where the written bit is 0 (60_exceptions R145). -/
theorem getLsbD_clearStatus (v : Word) (d : Device) (n : Nat) :
    (clearStatus v d).intSt.getLsbD n = (d.intSt.getLsbD n && !v.getLsbD n) := by
  rw [clearStatus_intSt, BitVec.getLsbD_and, BitVec.getLsbD_not, BitVec.getLsbD_extractLsb', Nat.zero_add]
  by_cases hn : n < 11
  · simp [hn]
  · simp [BitVec.getLsbD_of_ge d.intSt n (Nat.le_of_not_lt hn)]

/-- Two words have a set bit in common exactly when their conjunction is not zero. -/
theorem and_ne_zero_iff_exists_getLsbD {w : Nat} (x y : BitVec w) :
    x &&& y ≠ 0#w ↔ ∃ n, x.getLsbD n = true ∧ y.getLsbD n = true := by
  constructor
  · contrapose!
    intro hdisjoint
    apply BitVec.eq_of_getLsbD_eq
    intro n _
    simpa using hdisjoint n
  · rintro ⟨n, hx, hy⟩ hzero
    have hbit : (x &&& y).getLsbD n = true := by rw [BitVec.getLsbD_and, hx, hy, Bool.and_self]
    rw [hzero, BitVec.getLsbD_zero] at hbit
    cases hbit

/-- The line is asserted by a status bit whose enable is set (60_exceptions R144). -/
theorem Device.intOut_eq_true_iff (d : Device) :
    d.intOut = true ↔ ∃ n, d.intSt.getLsbD n = true ∧ d.intEna.getLsbD n = true :=
  bne_iff_ne.trans (and_ne_zero_iff_exists_getLsbD d.intSt d.intEna)

/-- Settles O34: the instruction commits `clearStatus`, which changes the status alone, bit by bit as
`getLsbD_clearStatus` says. -/
theorem intClrClearsWrittenOnes : Obligations.IntClrClearsWrittenOnes := by
  intro s v
  exact ⟨_, exec_intClr v s, rfl, getLsbD_clearStatus v s.dev⟩

/-- Settles O35: the instruction commits `writeIntEna`, which changes the enables alone. A status bit is below 11, where
the enable is the written bit, so the line follows by `Device.intOut_eq_true_iff`. -/
theorem intEnaDrivesTheLine : Obligations.IntEnaDrivesTheLine := by
  intro s v
  refine ⟨_, exec_intEna v s, rfl, (Device.intOut_eq_true_iff _).trans (exists_congr fun n => ?bit)⟩
  case bit =>
    refine and_congr_right fun (hstatus : s.dev.intSt.getLsbD n = true) => ?_
    have hn : n < 11 := BitVec.lt_of_getLsbD hstatus
    simp [writeIntEna, hn]

/-! ## The fault record -/

/-- A field that fits in the word, as a number (30_encoding R73). -/
theorem toNat_fieldWord {w n : Nat} (h : w + n ≤ 32) (x : BitVec w) : (fieldWord n x).toNat = x.toNat <<< n := by
  have hx : x.toNat <<< n < 2 ^ 32 := calc
    x.toNat <<< n = x.toNat * 2 ^ n := Nat.shiftLeft_eq ..
    _ < 2 ^ w * 2 ^ n := Nat.mul_lt_mul_of_pos_right x.isLt (Nat.two_pow_pos n)
    _ = 2 ^ (w + n) := (Nat.pow_add ..).symm
    _ ≤ 2 ^ 32 := Nat.pow_le_pow_right Nat.two_pos h
  rw [fieldWord, BitVec.toNat_shiftLeft, BitVec.toNat_setWidth_of_le (by omega), Nat.mod_eq_of_lt hx]

/-- The FAULT_INFO word as a number: the code below the content (30_encoding R70). -/
theorem Device.toNat_faultInfo (d : Device) :
    d.faultInfo.toNat = d.faultCode.toNat + 16 * d.faultContent.toNat := by
  rw [Device.faultInfo, BitVec.toNat_or, toNat_fieldWord (by decide), toNat_fieldWord (by decide), Nat.shiftLeft_zero,
    Nat.or_comm, ← Nat.shiftLeft_add_eq_or_of_lt d.faultCode.isLt, Nat.shiftLeft_eq]
  omega

/-- FAULT_VADDR_READ answers the record's address (60_exceptions R136). -/
theorem exec_faultVaddrRead (s : State) :
    exec .faultVaddrRead s = .next { s with answer := .word s.dev.faultVaddr } := by
  rfl

/-- FAULT_INFO_READ answers the record's code and content (60_exceptions R136). -/
theorem exec_faultInfoRead (s : State) :
    exec .faultInfoRead s = .next { s with answer := .word s.dev.faultInfo } := by
  rfl

/-- What touches one cache and the status leaves the fault record. -/
theorem CacheOnly.faultRecord {c : CacheId} {d d' : Device} (h : CacheOnly c d d') : d'.faultRecord = d.faultRecord := by
  simp only [Device.faultRecord, h.faultVaddr, h.faultCode, h.faultContent]

/-- A bus access that latches no fault leaves the fault record: an access turned away commits the device as it was, and
a completed one touches its cache and the status alone (60_exceptions R136). -/
theorem busAccess_faultRecord {b : Bus} {w : World} {k : AccessClass} {va : Word} {len : Nat} {wdata : List Byte}
    {s t : State} (h : busAccess b w k va len wdata s = .next t) :
    t.dev.faultRecord = s.dev.faultRecord ∨ t.answer = .permissionFault ∨ t.answer = .translationFault := by
  obtain rfl | ⟨_, _, rfl⟩ | ⟨_, _, _, rfl⟩ | ⟨st, off, _, _, _, ⟨a, _, rfl⟩ | ⟨_, rfl⟩⟩ := busAccess_cases h
  · exact .inl rfl
  · exact .inr (.inl rfl)
  · exact .inr (.inr rfl)
  · exact .inl rfl
  · rw [completeAccess_dev]
    exact .inl (CacheOnly.account ..).faultRecord

/-- An instruction leaves the fault record, or it is RESET or a bus access that latched a fault (60_exceptions R136). -/
theorem exec_faultRecord {i : Instr} {s t : State} (h : exec i s = .next t) :
    t.dev.faultRecord = s.dev.faultRecord ∨
      i = .reset ∨ t.answer = .permissionFault ∨ t.answer = .translationFault := by
  obtain ⟨_, _, _, _, rfl⟩ | ⟨_, off, v, _, _, rfl⟩ | ⟨_, _, ⟨_, rfl⟩ | ⟨_, rfl⟩⟩ |
    ⟨_, _, _, _, ⟨_, rfl⟩ | ⟨_, rfl⟩⟩ | ⟨_, _, _, _, _, hbus⟩ | ⟨c, p, _, _, _, _, rfl⟩ | ⟨hreset, rfl⟩ := exec_cases h
  · exact .inl rfl
  · exact .inl (writeReg_faultRecord ..)
  · exact .inl rfl
  · exact .inl rfl
  · exact .inl rfl
  · exact .inl rfl
  · exact (busAccess_faultRecord hbus).imp_right .inr
  · exact .inl (CacheOnly.setCache ..).faultRecord
  · exact .inr (.inl (encode_eq_reset hreset))

/-- Settles O38: the reads answer the record (`Device.toNat_faultInfo`), a write to either register is the write of a
read-only one (`exec_regWrite`), and `exec_faultRecord` says which instructions can change it. -/
theorem faultRecordReadsAndStays : Obligations.FaultRecordReadsAndStays := by
  refine ⟨fun s => ?reads, fun s v => ?writes, fun i s t hexec hchanged => ?changes⟩
  case reads => exact ⟨exec_faultVaddrRead s, _, exec_faultInfoRead s, s.dev.toNat_faultInfo⟩
  case writes => exact ⟨exec_regWrite s .faultVaddr v, exec_regWrite s .faultInfo v⟩
  case changes => exact (exec_faultRecord hexec).resolve_left hchanged

/-! ## The latch of a TranslationFault -/

/-- A TranslationFault changes the fault record and the status bit of its bus alone (60_exceptions R135, R137). -/
theorem mmuFault_eq (b : Bus) (va : Word) (q : Nat) (d : Device) :
    mmuFault b.cache va q d = { d with
      faultVaddr := va, faultCode := 1#4, faultContent := BitVec.ofNat 10 q
      intSt := d.intSt ||| (if b = .ibus then 1#11 else 2#11) } := by
  cases b <;> rfl

/-- A routed access the gate allows to a page whose entry is invalid commits its TranslationFault, and the cache state
controller is not asked (42_translation R95). -/
theorem exec_entry_invalid {s : State} {b : Bus} {k : AccessClass} {w : World} {va : Word} {len : Nat}
    {wdata : List Byte} (hr : routed s.cfg b va (accessLen k len wdata))
    (hp : pmsAllows (s.dev.pms b) w k (pageIndex s.cfg b.cache va.toNat) = true)
    (hi : (s.dev.entry (pageIndex s.cfg b.cache va.toNat)).invalid = true) :
    exec (busRow b k w va len wdata) s =
      .next (s.commit (mmuFault b.cache va (pageIndex s.cfg b.cache va.toNat) s.dev) .translationFault) := by
  obtain ⟨hbase, hpage⟩ := routed_page hr
  have htranslate : translate s.cfg b.cache va s.dev = .translationFault :=
    (translate_inside hbase hpage).trans (if_pos hi)
  rw [exec_busRow, busAccess_routed hr]
  simp only [gatedAccess, hp, if_true, htranslate]

/-- Settles O42: the access commits the latch (`exec_entry_invalid`), which `mmuFault_eq` writes out. -/
theorem translationFaultIsLatched : Obligations.TranslationFaultIsLatched := by
  intro s b k w va len wdata q hr hq hp hi
  obtain rfl : pageIndex s.cfg b.cache va.toNat = q := hq.symm
  rw [exec_entry_invalid hr hp hi, mmuFault_eq]
  rfl

end Sys2Proof.Machine
end

section
/-! Proofs of the encoding (30_encoding): the decoder and the encoder are inverse to each other up to the naming
convention (R66 to R68, R74; log 3), and rows of one transaction have one meaning (R76). -/

namespace Sys2Proof.Machine

/-! ## The checks of the decoder -/

/-- An aligned 32-bit register transaction passes the checks (20_memory R54). -/
theorem checkRegister_of_aligned {off : BitVec 12} (ha : alignedOffset off = true) (i : Instr) :
    checkRegister 32 off i = .ok i := by
  simp [checkRegister, ha]

/-- What passes the checks is 32 bits wide and aligned, and keeps its name (20_memory R54). -/
theorem checkRegister_eq_ok {width : Nat} {off : BitVec 12} {i j : Instr} (h : checkRegister width off i = .ok j) :
    width = 32 ∧ alignedOffset off = true ∧ i = j := by
  unfold checkRegister at h
  split_ifs at h with hwidth ha
  exact ⟨not_not.1 hwidth, ha, Except.ok.inj h⟩

/-- A write of a register is named by its row (30_encoding R74). -/
theorem decode_wr_regOffset (r : Reg) (v : Word) :
    decode (.wr 32 (regOffset r) v) = .ok (writeRow (some r) (regOffset r) v) := by
  rw [decode, regAt_regOffset, checkRegister_of_aligned (aligned_regOffset r)]

/-- A read of a register is named by its row (30_encoding R74). -/
theorem decode_rd_regOffset (r : Reg) :
    decode (.rd 32 (regOffset r)) = .ok (readRow (some r) (regOffset r)) := by
  rw [decode, regAt_regOffset, checkRegister_of_aligned (aligned_regOffset r)]

/-! ## The rows of one register -/

section
variable {c : CacheId} {v : Word}

/-- The four CTRL rows have the CTRL write as their transaction (30_encoding R76). -/
theorem encode_of_mem_ctrlRows : ∀ i ∈ ctrlRows c v, encode i = .wr 32 (regOffset (.block c .ctrl)) v := by
  cases c with
  | icache | dcache => simp [ctrlRows, encode, regOffset, blockRel, blockOffset]

/-- The three FREEZE rows have the FREEZE write as their transaction (30_encoding R76). -/
theorem encode_of_mem_freezeRows : ∀ i ∈ freezeRows c v, encode i = .wr 32 (regOffset (.block c .freeze)) v := by
  cases c with
  | icache | dcache => simp [freezeRows, encode, regOffset, blockRel, blockOffset]

/-- The four LOCK_CTRL rows have the LOCK_CTRL write as their transaction (30_encoding R76). -/
theorem encode_of_mem_lockRows : ∀ i ∈ lockRows c v, encode i = .wr 32 (regOffset (.block c .lockCtrl)) v := by
  cases c with
  | icache | dcache => simp [lockRows, encode, regOffset, blockRel, blockOffset]

/-- The four AUTOLOAD_CTRL rows have the AUTOLOAD_CTRL write as their transaction (30_encoding R76). -/
theorem encode_of_mem_autoloadRows :
    ∀ i ∈ autoloadRows c v, encode i = .wr 32 (regOffset (.block c .autoloadCtrl)) v := by
  cases c with
  | icache | dcache => simp [autoloadRows, encode, regOffset, blockRel, blockOffset]

variable (off : BitVec 12)

/-- Of the CTRL rows that match a word, the primary one names the write (log 3). -/
theorem blockWriteRow_of_mem_ctrlRows :
    ∀ i ∈ ctrlRows c v, WellFormed i = true → primary i = true → blockWriteRow c .ctrl off v = i := by
  cases c with
  | icache | dcache => simp +contextual [ctrlRows, WellFormed, primary, blockWriteRow]

/-- Of the FREEZE rows that match a word, the primary one names the write (log 3). -/
theorem blockWriteRow_of_mem_freezeRows :
    ∀ i ∈ freezeRows c v, WellFormed i = true → primary i = true → blockWriteRow c .freeze off v = i := by
  cases c with
  | icache | dcache => simp +contextual [freezeRows, WellFormed, primary, blockWriteRow]

/-- Of the LOCK_CTRL rows that match a word, the primary one names the write; bit 3 chooses between the sections
(log 3). -/
theorem blockWriteRow_of_mem_lockRows :
    ∀ i ∈ lockRows c v, WellFormed i = true → primary i = true → blockWriteRow c .lockCtrl off v = i := by
  cases c with
  | icache | dcache =>
    cases h3 : v[3] <;> simp +contextual [lockRows, WellFormed, primary, blockWriteRow, h3]

/-- Of the AUTOLOAD_CTRL rows that match a word, the primary one names the write; bit 3 chooses between the sections
(log 3). -/
theorem blockWriteRow_of_mem_autoloadRows :
    ∀ i ∈ autoloadRows c v, WellFormed i = true → primary i = true → blockWriteRow c .autoloadCtrl off v = i := by
  cases c with
  | icache | dcache =>
    cases h3 : v[3] <;> simp +contextual [autoloadRows, WellFormed, primary, blockWriteRow, h3]

end

/-! ## The generic rows -/

/-- A read that REG_READ is primary for is named REG_READ (30_encoding R74). -/
theorem readRow_of_genericRead {reg : Option Reg} (h : genericRead reg = true) (off : BitVec 12) :
    readRow reg off = .regRead off := by
  match reg, h with
  | none, _ => rfl
  | some (.block c r), h =>
    cases r with
    | acsCnt | missCnt | psramMissCnt => cases h
    | _ => cases c <;> rfl

/-- A write that REG_WRITE is primary for is named REG_WRITE (30_encoding R74). -/
theorem writeRow_of_genericWrite {reg : Option Reg} {v : Word} (h : genericWrite reg v = true) (off : BitVec 12) :
    writeRow reg off v = .regWrite off v := by
  match reg, h with
  | none, _ | some .faultVaddr, _ | some .faultInfo, _ => rfl
  | some (.block c r), h =>
    cases r with
    | acsCnt | missCnt | psramMissCnt => cases c <;> rfl
    | preloadCtrl | syncCtrl | cntCtrl =>
      have hbit : v.getLsbD 0 = false := by simpa [genericWrite] using h
      cases c <;> exact if_neg (Bool.eq_false_iff.1 hbit)
    | _ => cases h

/-! ## The bus rows -/

/-- `attr4` holds the bus, the world and the class, and nothing else (30_encoding R68). -/
theorem attr4_fields (b : Bus) (w : World) (k : AccessClass) :
    attrBus (attr4 b w k) = b ∧ worldOf (attr4 b w k) = w ∧ classOf (attr4 b w k) = some k := by
  cases b <;> cases w <;> cases k <;> decide

/-- The fields of a request whose class is not reserved are its four bits (30_encoding R68). -/
theorem attr4_of_classOf {a : BitVec 4} {k : AccessClass} (h : classOf a = some k) :
    attr4 (attrBus a) (worldOf a) k = a := by
  have all : ∀ a : BitVec 4, ∀ k ∈ classOf a, attr4 (attrBus a) (worldOf a) k = a := by decide
  exact all a k h

/-- The request of a bus operation (30_encoding R68). -/
theorem encode_busRow (b : Bus) (k : AccessClass) (w : World) (va : Word) (len : Nat) (wdata : List Byte) :
    encode (busRow b k w va len wdata) = .bus (attr4 b w k) va (accessLen k len wdata) (accessData k wdata) := by
  cases b <;> cases k <;> rfl

/-- Every bus operation is well-formed and the one row of its request. -/
theorem busRow_primary (b : Bus) (k : AccessClass) (w : World) (va : Word) (len : Nat) (wdata : List Byte) :
    WellFormed (busRow b k w va len wdata) = true ∧ primary (busRow b k w va len wdata) = true := by
  cases b <;> cases k <;> exact ⟨rfl, rfl⟩

/-- A request with the data of its class is named after its bus operation (30_encoding R68). -/
theorem decodeBus_of_classOf {a : BitVec 4} {k : AccessClass} (h : classOf a = some k) (va : Word) {len : Nat}
    {wdata : List Byte} (hlen : len = accessLen k len wdata) (hdata : wdata = accessData k wdata) :
    decodeBus a va len wdata = .ok (busRow (attrBus a) k (worldOf a) va len wdata) := by
  cases k with
  | read | fetch =>
    simp only [decodeBus, h, if_pos (show wdata = [] from hdata), attrBus]
    cases a.getLsbD 3 <;> rfl
  | write =>
    simp only [decodeBus, h, if_pos (show wdata.length = len from hlen.symm), attrBus]
    cases a.getLsbD 3 <;> rfl

/-- What the decoder accepts on a bus: a request of a class that is not reserved, with the data of its class
(30_encoding R68, log 10). -/
theorem decodeBus_eq_ok {a : BitVec 4} {va : Word} {len : Nat} {wdata : List Byte} {i : Instr}
    (h : decodeBus a va len wdata = .ok i) :
    ∃ k, classOf a = some k ∧ len = accessLen k len wdata ∧ wdata = accessData k wdata ∧
      i = busRow (attrBus a) k (worldOf a) va len wdata := by
  cases hk : classOf a with
  | none =>
    simp only [decodeBus, hk] at h
    cases h
  | some k =>
    have hfit : len = accessLen k len wdata ∧ wdata = accessData k wdata := by
      cases k with
      | read | fetch =>
        by_cases hdata : wdata = []
        · exact ⟨rfl, hdata⟩
        · simp only [decodeBus, hk, if_neg hdata] at h
          cases h
      | write =>
        by_cases hlen : wdata.length = len
        · exact ⟨hlen.symm, rfl⟩
        · simp only [decodeBus, hk, if_neg hlen] at h
          cases h
    obtain ⟨hlen, hdata⟩ := hfit
    rw [decodeBus_of_classOf hk va hlen hdata] at h
    exact ⟨k, rfl, hlen, hdata, (Except.ok.inj h).symm⟩

/-- A bus operation is the one its request decodes to (30_encoding R68). -/
theorem decode_encode_busRow (b : Bus) (k : AccessClass) (w : World) (va : Word) (len : Nat) (wdata : List Byte) :
    decode (encode (busRow b k w va len wdata)) = .ok (busRow b k w va len wdata) := by
  obtain ⟨hbus, hworld, hclass⟩ := attr4_fields b w k
  have hrow : busRow b k w va (accessLen k len wdata) (accessData k wdata) = busRow b k w va len wdata := by
    cases b <;> cases k <;> rfl
  rw [encode_busRow, decode, decodeBus_of_classOf hclass va (by cases k <;> rfl) (by cases k <;> rfl), hbus, hworld,
    hrow]

/-! ## Decoding gives back what was encoded -/

/-- An instruction that a register write is encoded from and named after. -/
theorem decode_encode_of_writeRow {i : Instr} {r : Reg} {v : Word} (he : encode i = .wr 32 (regOffset r) v)
    (hrow : writeRow (some r) (regOffset r) v = i) : decode (encode i) = .ok i := by
  rw [he, decode_wr_regOffset, hrow]

section
variable {c : CacheId} {v : Word} {i : Instr} (hw : WellFormed i = true) (hp : primary i = true)
include hw hp

theorem decode_encode_of_mem_ctrlRows (h : i ∈ ctrlRows c v) : decode (encode i) = .ok i :=
  decode_encode_of_writeRow (encode_of_mem_ctrlRows i h) (blockWriteRow_of_mem_ctrlRows _ i h hw hp)

theorem decode_encode_of_mem_freezeRows (h : i ∈ freezeRows c v) : decode (encode i) = .ok i :=
  decode_encode_of_writeRow (encode_of_mem_freezeRows i h) (blockWriteRow_of_mem_freezeRows _ i h hw hp)

theorem decode_encode_of_mem_lockRows (h : i ∈ lockRows c v) : decode (encode i) = .ok i :=
  decode_encode_of_writeRow (encode_of_mem_lockRows i h) (blockWriteRow_of_mem_lockRows _ i h hw hp)

theorem decode_encode_of_mem_autoloadRows (h : i ∈ autoloadRows c v) : decode (encode i) = .ok i :=
  decode_encode_of_writeRow (encode_of_mem_autoloadRows i h) (blockWriteRow_of_mem_autoloadRows _ i h hw hp)

end

/-- The three trigger rows name the write that sets their trigger bit (30_encoding R74). -/
theorem decode_encode_triggerRows {v : Word} (hv : v.getLsbD 0 = true) (c : CacheId) :
    decode (encode (preloadRow c v)) = .ok (preloadRow c v) ∧
    decode (encode (invalidateRow c v)) = .ok (invalidateRow c v) ∧
    decode (encode (cntClrRow c v)) = .ok (cntClrRow c v) :=
  ⟨decode_encode_of_writeRow (r := .block c .preloadCtrl) (v := v) (by cases c <;> rfl) (by cases c <;> exact if_pos hv),
    decode_encode_of_writeRow (r := .block c .syncCtrl) (v := v) (by cases c <;> rfl) (by cases c <;> exact if_pos hv),
    decode_encode_of_writeRow (r := .block c .cntCtrl) (v := v) (by cases c <;> rfl) (by cases c <;> exact if_pos hv)⟩

/-- Settles O1, by cases on the instruction: the generic rows by what REG_READ and REG_WRITE are primary for, the rows of
one register by the bits that name them, the bus rows by the fields of attr4; the offset of any other row names it. -/
theorem decodeOfEncodeIsIdentity : Obligations.DecodeOfEncodeIsIdentity := by
  intro i hw hp
  cases i with
  | regRead off => exact (checkRegister_of_aligned hw _).trans (congrArg _ (readRow_of_genericRead hp off))
  | regWrite off v => exact (checkRegister_of_aligned hw _).trans (congrArg _ (writeRow_of_genericWrite hp off))
  | mmuRead i => exact decode_rd_regOffset (.mmuEntry i)
  | mmuWrite i v => exact decode_wr_regOffset (.mmuEntry i) v
  | dcacheEnable v | dcacheDisable v | dcacheShut v | dcacheWrap v =>
    exact decode_encode_of_mem_ctrlRows (c := .dcache) (v := v) hw hp (by simp [ctrlRows])
  | icacheEnable v | icacheDisable v | icacheShut v | icacheWrap v =>
    exact decode_encode_of_mem_ctrlRows (c := .icache) (v := v) hw hp (by simp [ctrlRows])
  | dcacheFreeze v | dcacheUnfreeze v | dcacheFreezeMode v =>
    exact decode_encode_of_mem_freezeRows (c := .dcache) (v := v) hw hp (by simp [freezeRows])
  | icacheFreeze v | icacheUnfreeze v | icacheFreezeMode v =>
    exact decode_encode_of_mem_freezeRows (c := .icache) (v := v) hw hp (by simp [freezeRows])
  | dcacheLock0 v | dcacheUnlock0 v | dcacheLock1 v | dcacheUnlock1 v =>
    exact decode_encode_of_mem_lockRows (c := .dcache) (v := v) hw hp (by simp [lockRows])
  | icacheLock0 v | icacheUnlock0 v | icacheLock1 v | icacheUnlock1 v =>
    exact decode_encode_of_mem_lockRows (c := .icache) (v := v) hw hp (by simp [lockRows])
  | dcacheAutoloadArm0 v | dcacheAutoloadDisarm0 v | dcacheAutoloadArm1 v | dcacheAutoloadDisarm1 v =>
    exact decode_encode_of_mem_autoloadRows (c := .dcache) (v := v) hw hp (by simp [autoloadRows])
  | icacheAutoloadArm0 v | icacheAutoloadDisarm0 v | icacheAutoloadArm1 v | icacheAutoloadDisarm1 v =>
    exact decode_encode_of_mem_autoloadRows (c := .icache) (v := v) hw hp (by simp [autoloadRows])
  | dcachePreload v => exact (decode_encode_triggerRows hw .dcache).1
  | icachePreload v => exact (decode_encode_triggerRows hw .icache).1
  | dcacheInvalidate v => exact (decode_encode_triggerRows hw .dcache).2.1
  | icacheInvalidate v => exact (decode_encode_triggerRows hw .icache).2.1
  | dcacheCntClr v => exact (decode_encode_triggerRows hw .dcache).2.2
  | icacheCntClr v => exact (decode_encode_triggerRows hw .icache).2.2
  | ibusRead w va len => exact decode_encode_busRow .ibus .read w va len []
  | ibusWrite w va wdata => exact decode_encode_busRow .ibus .write w va 0 wdata
  | ibusFetch w va len => exact decode_encode_busRow .ibus .fetch w va len []
  | dbusRead w va len => exact decode_encode_busRow .dbus .read w va len []
  | dbusWrite w va wdata => exact decode_encode_busRow .dbus .write w va 0 wdata
  | dbusFetch w va len => exact decode_encode_busRow .dbus .fetch w va len []
  | _ => rfl

/-! ## The decoded instruction -/

/-- An instruction stands for a transaction: it is well-formed, it is the row the naming convention picks, and its
encoding is the transaction. -/
structure Names (i : Instr) (t : Transaction) : Prop where
  wellFormed : WellFormed i = true
  primary : primary i = true
  encode : encode i = t

/-- REG_WRITE names the write of a register no other row is primary for. -/
theorem names_regWrite {r : Reg} {v : Word} (h : genericWrite (some r) v = true) :
    Names (.regWrite (regOffset r) v) (.wr 32 (regOffset r) v) :=
  ⟨aligned_regOffset r, (congrArg (genericWrite · v) (regAt_regOffset r)).trans h, rfl⟩

/-- REG_READ names the read of a register no other row is primary for. -/
theorem names_regRead {r : Reg} (h : genericRead (some r) = true) :
    Names (.regRead (regOffset r)) (.rd 32 (regOffset r)) :=
  ⟨aligned_regOffset r, (congrArg genericRead (regAt_regOffset r)).trans h, rfl⟩

/-- The row of a write to a per-cache register stands for the write (30_encoding R74). -/
theorem names_blockWriteRow (c : CacheId) (r : BlockReg) (v : Word) :
    Names (blockWriteRow c r (regOffset (.block c r)) v) (.wr 32 (regOffset (.block c r)) v) := by
  cases r with
  | ctrl | freeze | lockCtrl | autoloadCtrl =>
    cases c with
    | icache | dcache =>
      simp only [blockWriteRow]
      split_ifs <;> constructor <;> simp_all [WellFormed, primary, encode, regOffset, blockOffset, blockRel]
  | preloadCtrl | syncCtrl | cntCtrl =>
    by_cases hv : v.getLsbD 0 = true
    · cases c with
      | icache | dcache =>
        simp only [blockWriteRow, if_pos hv]
        exact ⟨hv, rfl, rfl⟩
    · have hclear : (!v.getLsbD 0) = true := by simpa using hv
      cases c with
      | icache | dcache =>
        simp only [blockWriteRow, if_neg hv]
        exact names_regWrite hclear
  | acsCnt | missCnt | psramMissCnt => cases c <;> exact names_regWrite rfl
  | lockAddr k | lockSize k | autoloadAddr k | autoloadSize k => cases c <;> cases k <;> exact ⟨rfl, rfl, rfl⟩
  | pmsBoundary k | pmsAttr k => cases c <;> cases k <;> exact ⟨rfl, rfl, rfl⟩
  | preloadAddr | preloadSize | pmsLock => cases c <;> exact ⟨rfl, rfl, rfl⟩

/-- The row of a register write stands for the write (30_encoding R74). -/
theorem names_writeRow {off : BitVec 12} (ha : alignedOffset off = true) (v : Word) :
    Names (writeRow (regAt off) off v) (.wr 32 off v) := by
  cases hr : regAt off with
  | none => exact ⟨ha, congrArg (genericWrite · v) hr, rfl⟩
  | some r =>
    obtain rfl := regOffset_of_regAt hr ha
    cases r with
    | block c r => exact names_blockWriteRow c r v
    | faultVaddr | faultInfo => exact names_regWrite rfl
    | intSt | intEna | mmuEntry i => exact ⟨rfl, rfl, rfl⟩

/-- The row of a register read stands for the read (30_encoding R74). -/
theorem names_readRow {off : BitVec 12} (ha : alignedOffset off = true) :
    Names (readRow (regAt off) off) (.rd 32 off) := by
  cases hr : regAt off with
  | none => exact ⟨ha, congrArg genericRead hr, rfl⟩
  | some r =>
    obtain rfl := regOffset_of_regAt hr ha
    cases r with
    | block c r =>
      cases r with
      | acsCnt | missCnt | psramMissCnt => cases c <;> exact ⟨rfl, rfl, rfl⟩
      | _ =>
        rw [readRow_of_genericRead rfl]
        exact names_regRead rfl
    | intSt | intEna | faultVaddr | faultInfo | mmuEntry i => exact ⟨rfl, rfl, rfl⟩

/-- The decoder names a transaction after an instruction that stands for it, so it drops no bit of it. -/
theorem names_of_decode {t : Transaction} {i : Instr} (h : decode t = .ok i) : Names i t := by
  cases t with
  | rd width off =>
    obtain ⟨rfl, ha, rfl⟩ := checkRegister_eq_ok h
    exact names_readRow ha
  | wr width off v =>
    obtain ⟨rfl, ha, rfl⟩ := checkRegister_eq_ok h
    exact names_writeRow ha v
  | bus a va len wdata =>
    obtain ⟨k, hclass, hlen, hdata, rfl⟩ := decodeBus_eq_ok h
    obtain ⟨hw, hp⟩ := busRow_primary (attrBus a) k (worldOf a) va len wdata
    exact ⟨hw, hp, by rw [encode_busRow, attr4_of_classOf hclass, ← hlen, ← hdata]⟩
  | mmuGet _ | mmuSet _ _ _ | evict _ _ | reset =>
    obtain rfl := Except.ok.inj h
    exact ⟨rfl, rfl, rfl⟩

/-- Settles O3: `names_of_decode`. -/
theorem decodedInstructionEncodesBack : Obligations.DecodedInstructionEncodesBack := by
  intro t i h
  obtain ⟨hw, hp, he⟩ := names_of_decode h
  exact ⟨hw, hp, he⟩

/-- The transaction of a well-formed instruction is one the decoder accepts. -/
theorem exists_decode_encode {i : Instr} (hw : WellFormed i = true) : ∃ j, decode (encode i) = .ok j := by
  cases i with
  | regRead off | regWrite off v => exact ⟨_, checkRegister_of_aligned hw _⟩
  | mmuRead i => exact ⟨_, decode_rd_regOffset (.mmuEntry i)⟩
  | mmuWrite i v => exact ⟨_, decode_wr_regOffset (.mmuEntry i) v⟩
  | ibusRead w va len => exact ⟨_, decode_encode_busRow .ibus .read w va len []⟩
  | ibusWrite w va wdata => exact ⟨_, decode_encode_busRow .ibus .write w va 0 wdata⟩
  | ibusFetch w va len => exact ⟨_, decode_encode_busRow .ibus .fetch w va len []⟩
  | dbusRead w va len => exact ⟨_, decode_encode_busRow .dbus .read w va len []⟩
  | dbusWrite w va wdata => exact ⟨_, decode_encode_busRow .dbus .write w va 0 wdata⟩
  | dbusFetch w va len => exact ⟨_, decode_encode_busRow .dbus .fetch w va len []⟩
  | _ => exact ⟨_, rfl⟩

/-- Settles O2: an instruction means the effect of its transaction (`exec_eq_run`), and what the decoder accepts it names
after an instruction with that transaction (`names_of_decode`). -/
theorem rowsOfOneTransactionHaveOneMeaning : Obligations.RowsOfOneTransactionHaveOneMeaning := by
  constructor
  · intro i j s he
    rw [exec_eq_run, exec_eq_run, he]
  · intro i hw
    obtain ⟨j, hj⟩ := exists_decode_encode hw
    exact ⟨j, hj, (names_of_decode hj).encode⟩

/-- Settles O4: each key is decoded as the table reads it. -/
theorem sampleTableWordsDecode : Obligations.SampleTableWordsDecode := by
  refine ⟨?_, ?_, ?_, ?_, ?_, ?_, ?_⟩ <;> decide +kernel

end Sys2Proof.Machine
end

section
/-! Proofs of the steps and of RESET (10_state R17, 00_scope section 4, 70_reset_and_hazards R156, R157): what every
operation leaves of the machine around the device, what a step does, and the state RESET leaves. -/

namespace Sys2Proof.Machine

/-! ## What an operation leaves around the device -/

/-- A bus access leaves the parameters, the program, the position and the draw. -/
theorem busAccess_frame {b : Bus} {w : World} {k : AccessClass} {va : Word} {len : Nat} {wdata : List Byte}
    {s t : State} (h : busAccess b w k va len wdata s = .next t) :
    t.cfg = s.cfg ∧ t.program = s.program ∧ t.position = s.position ∧ t.draws = s.draws := by
  obtain rfl | ⟨_, _, rfl⟩ | ⟨_, _, _, rfl⟩ | ⟨st, off, _, _, _, ⟨a, _, rfl⟩ | ⟨_, rfl⟩⟩ := busAccess_cases h
  · exact ⟨rfl, rfl, rfl, rfl⟩
  · exact ⟨rfl, rfl, rfl, rfl⟩
  · exact ⟨rfl, rfl, rfl, rfl⟩
  · exact ⟨rfl, rfl, rfl, rfl⟩
  · exact completeAccess_fields ..

/-- Every instruction leaves the parameters, the program, the position and the draw (00_scope section 4). -/
theorem exec_frame {i : Instr} {s t : State} (h : exec i s = .next t) :
    t.cfg = s.cfg ∧ t.program = s.program ∧ t.position = s.position ∧ t.draws = s.draws := by
  obtain ⟨_, _, _, _, rfl⟩ | ⟨_, _, _, _, _, rfl⟩ | ⟨_, _, ⟨_, rfl⟩ | ⟨_, rfl⟩⟩ |
    ⟨_, _, _, _, ⟨_, rfl⟩ | ⟨_, rfl⟩⟩ | ⟨_, _, _, _, _, hbus⟩ | ⟨_, _, _, _, _, _, rfl⟩ | ⟨_, rfl⟩ := exec_cases h
  case inr.inr.inr.inr.inl => exact busAccess_frame hbus
  all_goals exact ⟨rfl, rfl, rfl, rfl⟩

/-- A bus access answers a next state or a refusal. -/
theorem busAccess_ne_fault (b : Bus) (w : World) (k : AccessClass) (va : Word) (len : Nat) (wdata : List Byte)
    (s : State) (f : Fault) : busAccess b w k va len wdata s ≠ .fault f := by
  unfold busAccess
  split_ifs <;> exact nofun

/-- No instruction faults: the one fault is the end of the program (log 1). -/
theorem exec_ne_fault (i : Instr) (s : State) (f : Fault) : exec i s ≠ .fault f := by
  rw [exec_eq_run]
  cases encode i with
  | rd _ _ | wr _ _ _ =>
    unfold runTransaction
    dsimp only
    split_ifs <;> exact nofun
  | mmuGet _ =>
    unfold runTransaction execMmuGet
    dsimp only
    split_ifs <;> exact nofun
  | mmuSet _ _ _ =>
    unfold runTransaction execMmuSet
    dsimp only
    split_ifs <;> exact nofun
  | bus _ _ _ _ => exact busAccess_ne_fault _ _ _ _ _ _ s f
  | evict _ _ =>
    unfold runTransaction execEvict
    dsimp only
    split_ifs <;> exact nofun
  | reset => exact nofun

/-! ## Steps -/

/-- A step of a transaction the decoder accepts runs its instruction and advances. -/
theorem step_of_decode {s : State} {t : Transaction} {i : Instr} (hv : s.cfg.valid = true)
    (hf : fetch s = some (.op t)) (hd : decode t = .ok i) : step s = advanceResult (exec i s) := by
  simp only [step, hv, if_true, hf, hd]

/-- Settles O6: the step is the instruction and an advance (`step_of_decode`); the instruction leaves the program and the
position that `advance` reads (`exec_frame`). -/
theorem stepRunsTheDecodedInstruction : Obligations.StepRunsTheDecodedInstruction := by
  intro s t i hv hf hd
  rw [step_of_decode hv hf hd]
  refine ⟨fun s' hexec => ?next, fun r hexec => ?refused, exec_ne_fault i s⟩
  case next =>
    obtain ⟨_, hprogram, hposition, _⟩ := exec_frame hexec
    rw [hexec, advanceResult, advance, nextDraw, hprogram, hposition]
  case refused => rw [hexec, advanceResult]

/-- Settles O8: a store write changes a store alone, an instruction leaves all three (`exec_frame`), and `advance` moves
the position on. -/
theorem stepKeepsParametersAndAdvances : Obligations.StepKeepsParametersAndAdvances := by
  intro s t h
  obtain ⟨_, ⟨st, off, bytes, _, rfl⟩ | ⟨_, i, s', _, _, hexec, rfl⟩⟩ := step_cases h
  · simp
  · obtain ⟨hcfg, hprogram, hposition, _⟩ := exec_frame hexec
    exact ⟨hcfg, hprogram, congrArg (· + 1) hposition⟩

/-- Advancing changes no byte of a store. -/
@[simp] theorem byteAt_advance (s : State) (st : StoreId) (off : Nat) : (advance s).byteAt st off = s.byteAt st off := by
  cases st <;> rfl

/-- The bytes of the stores after MemWrite inside its store, the written byte by its number in the run (20_memory R58). -/
theorem byteAt_memWrite_getD {st : StoreId} {off : Nat} {bytes : List Byte} {s : State}
    (hwf : Memory.wf (s.store st) = true) (hin : off + bytes.length ≤ storeSize s.cfg st) (st' : StoreId) (x : Nat) :
    (memWrite st off bytes s).byteAt st' x =
      if st' = st ∧ off ≤ x ∧ x < off + bytes.length then bytes.getD (x - off) 0#8 else s.byteAt st' x := by
  rw [byteAt_memWrite st st' off x bytes s hwf hin]
  split_ifs with h
  · exact (List.getD_eq_getElem _ _ (by omega)).symm
  · rfl

/-- Settles O7: the first three cases are branches of `step`; the bytes of an environment write are
`byteAt_memWrite_getD`. -/
theorem stepWithoutTransaction : Obligations.StepWithoutTransaction := by
  intro s
  refine ⟨fun hv => ?invalid, fun hv hf => ?ended, fun st off bytes hv hf hwf hin => ?written⟩
  case invalid => simp only [step, hv, Bool.false_eq_true, if_false]
  case ended => simp only [step, hv, if_true, hf]
  case written =>
    refine ⟨advance (memWrite st off bytes s), ?_, by simp, by simp, fun st' x => ?_⟩
    · simp only [step, hv, if_true, hf]
    · rw [byteAt_advance, byteAt_memWrite_getD hwf hin]

/-! ## RESET -/

/-- RESET commits the reset device (70_reset_and_hazards R156). -/
theorem exec_reset (s : State) : exec .reset s = .next (s.commit (Device.reset s.cfg) .nothing) := by
  rfl

/-- Every MMU entry is invalid with page 0 after RESET (10_state R18). -/
theorem entry_reset (p : Params) (i : Nat) : (Device.reset p).entry i = MmuEntry.reset := by
  by_cases hi : i < 512 <;> simp [Device.entry, Device.reset, hi]

/-- Both caches are as `CacheState.reset` says after RESET (70_reset_and_hazards R156). -/
@[simp] theorem cache_reset (p : Params) (c : CacheId) : (Device.reset p).cache c = CacheState.reset := by
  cases c <;> rfl

/-- Settles O9: `exec_reset`, with the entries by `entry_reset` and the caches by `cache_reset`. -/
theorem resetGivesTheResetValues : Obligations.ResetGivesTheResetValues := by
  intro s
  refine ⟨_, exec_reset s, rfl, fun i _ => entry_reset s.cfg i, fun c => ?cache, rfl, rfl, rfl, rfl, rfl, rfl, rfl, rfl,
    rfl, ?line⟩
  case line => simp [Device.intOut, Device.reset]
  case cache =>
    rw [State.commit_dev, cache_reset]
    refine ⟨rfl, rfl, rfl, rfl, fun k => ?lock, rfl, rfl, rfl, rfl, fun k => ?autoload, rfl, rfl, fun q => ?resident, rfl,
      rfl, rfl⟩
    case lock => cases k <;> rfl
    case autoload => cases k <;> rfl
    case resident =>
      rw [Device.residentAt, cache_reset]
      exact BitVec.getLsbD_zero

/-- The default PMS_RESET lets every class of every world through to every page of the window (00_scope section 4). -/
theorem pmsAllows_default (w : World) (k : AccessClass) {q : Nat} (hq : q < 512) :
    pmsAllows (PmsTable.reset PmsReset.default) w k q = true := by
  have hsection : pmsSection (PmsTable.reset PmsReset.default) q = some .k0 :=
    if_pos (show q < 4095 by omega)
  rw [pmsAllows_of_pmsSection_some hsection]
  cases w <;> cases k <;> rfl

/-- Settles O11: no entry is valid after RESET (`entry_reset`), so what the gate allows faults in the table, and the
default table allows every access (`pmsAllows_default`). -/
theorem accessAfterResetFaults : Obligations.AccessAfterResetFaults := by
  intro s s' b k w va len wdata hreset hr
  obtain rfl : s.commit (Device.reset s.cfg) .nothing = s' := Host.Outcome.next.inj hreset
  have hinvalid : ((Device.reset s.cfg).entry (pageIndex s.cfg b.cache va.toNat)).invalid = true := by
    rw [entry_reset]
    rfl
  cases hp : pmsAllows ((Device.reset s.cfg).pms b) w k (pageIndex s.cfg b.cache va.toNat) with
  | true => exact ⟨_, exec_entry_invalid hr hp hinvalid, .inl rfl, fun _ _ => rfl⟩
  | false =>
    refine ⟨_, exec_gate_rejected hr hp, .inr rfl, fun hi hd => ?default⟩
    case default =>
      have htable : (Device.reset s.cfg).pms b = PmsTable.reset PmsReset.default := by
        cases b with
        | ibus => exact congrArg PmsTable.reset hi
        | dbus => exact congrArg PmsTable.reset hd
      rw [htable, pmsAllows_default w k (routed_page hr).2] at hp
      cases hp

end Sys2Proof.Machine
end

section
/-! Proofs of the register file (40_register_file, 10_state section 4): REG_READ and REG_WRITE (R80, R81), the words of
the control registers bit by bit (R32 to R39), the plain stores (R35), and the permission and interrupt registers
(R41 to R45). -/

namespace Sys2Proof.Machine

/-! ## Reads -/

/-- A field at bit 0 is the zero-extended field (30_encoding R73). -/
theorem fieldWord_zero {w : Nat} (x : BitVec w) : fieldWord 0 x = x.zeroExtend 32 :=
  BitVec.shiftLeft_zero _

/-- Settles O12: the two branches of REG_READ. -/
theorem registerReadAnswersAWord : Obligations.RegisterReadAnswersAWord := by
  intro s off
  constructor
  · intro ha
    exact ⟨_, exec_read rfl ((alignedOffset_iff off).2 ha) s⟩
  · intro ha
    exact if_neg (mt (alignedOffset_iff off).1 ha)

/-- A flag at bit m, bit by bit (30_encoding R73). -/
theorem getLsbD_flagWord_beq {m : Nat} (hm : m < 32) (n : Nat) (b : Bool) :
    (flagWord m b).getLsbD n = (n == m && b) := by
  rw [getLsbD_flagWord m n b hm, Bool.and_comm, beq_eq_decide]

section
variable (x : CacheState) (n : Nat)

/-- CTRL, bit by bit (10_state R32). -/
theorem getLsbD_readCtrl : (readCtrl x).getLsbD n =
    ((n == 0 && x.cstate != .disabled) || (n == 1 && x.shut) || (n == 2 && x.wrap)) := by
  simp [readCtrl, getLsbD_flagWord_beq]

/-- FREEZE, bit by bit (10_state R33). -/
theorem getLsbD_readFreeze : (readFreeze x).getLsbD n =
    (((n == 0 || n == 2) && x.cstate == .frozen) || (n == 1 && x.freezeMode)) := by
  simp [readFreeze, getLsbD_flagWord_beq, Bool.and_or_distrib_right, Bool.or_right_comm]

/-- LOCK_CTRL, bit by bit (10_state R34). -/
theorem getLsbD_readLockCtrl : (readLockCtrl x).getLsbD n =
    (((n == 0 || n == 1) && x.lock0.ena) || ((n == 2 || n == 3) && x.lock1.ena)) := by
  simp [readLockCtrl, getLsbD_flagWord_beq, Bool.and_or_distrib_right, Bool.or_assoc]

/-- PRELOAD_CTRL, bit by bit (10_state R36). -/
theorem getLsbD_readPreloadCtrl : (readPreloadCtrl x).getLsbD n =
    ((n == 1 && x.preloadDone) || (n == 2 && x.preloadOrder)) := by
  simp [readPreloadCtrl, getLsbD_flagWord_beq]

/-- SYNC_CTRL, bit by bit (10_state R38). -/
theorem getLsbD_readSyncCtrl : (readSyncCtrl x).getLsbD n = (n == 1 && x.invalDone) := by
  simp [readSyncCtrl, getLsbD_flagWord_beq]

/-- A two-bit field, bit by bit (30_encoding R73). -/
theorem getLsbD_fieldWord_two {m : Nat} (hm : m + 1 < 32) (y : BitVec 2) :
    (fieldWord m y).getLsbD n = ((n == m && y.getLsbD 0) || (n == m + 1 && y.getLsbD 1)) := by
  rw [getLsbD_fieldWord]
  by_cases h0 : n = m
  · subst h0
    simp [show n < 32 by omega]
  · by_cases h1 : n = m + 1
    · subst h1
      simp [hm]
    · have hout : n < m ∨ 2 ≤ n - m := by omega
      obtain hlow | hhigh := hout
      · simp [h0, h1, Nat.not_le_of_lt hlow]
      · simp [h0, h1, BitVec.getLsbD_of_ge y _ hhigh]

/-- AUTOLOAD_CTRL, bit by bit (10_state R37). -/
theorem getLsbD_readAutoloadCtrl : (readAutoloadCtrl x).getLsbD n =
    (((n == 0 || n == 1) && x.al0.ena) || ((n == 2 || n == 3) && x.al1.ena) ||
      (n == 4 && x.al0.trig.getLsbD 0) || (n == 5 && x.al0.trig.getLsbD 1) ||
      (n == 6 && x.al1.trig.getLsbD 0) || (n == 7 && x.al1.trig.getLsbD 1) || (n == 8 && x.alOrder)) := by
  simp [readAutoloadCtrl, getLsbD_flagWord_beq, getLsbD_fieldWord_two, Bool.and_or_distrib_right, Bool.or_assoc]

end

/-- Settles O13: each register answers its read value (`exec_regRead`), whose bits its own lemma gives. -/
theorem controlRegistersReadTheirState : Obligations.ControlRegistersReadTheirState := by
  intro s c
  exact ⟨_, _, _, _, _, _,
    exec_regRead s (.block c .ctrl), getLsbD_readCtrl _, exec_regRead s (.block c .freeze), getLsbD_readFreeze _,
    exec_regRead s (.block c .lockCtrl), getLsbD_readLockCtrl _,
    exec_regRead s (.block c .preloadCtrl), getLsbD_readPreloadCtrl _,
    exec_regRead s (.block c .autoloadCtrl), getLsbD_readAutoloadCtrl _,
    exec_regRead s (.block c .syncCtrl), getLsbD_readSyncCtrl _, exec_regRead s (.block c .cntCtrl)⟩

/-- A permission register reads its field zero-extended (10_state R41 to R43). -/
theorem exec_regRead_field {r : Reg} {s : State} {w : Nat} {x : BitVec w}
    (h : readReg (some r) s.dev = fieldWord 0 x) :
    exec (.regRead (regOffset r)) s = .next { s with answer := .word (x.zeroExtend 32) } := by
  rw [exec_regRead, h, fieldWord_zero]

/-- Settles O14: `exec_regRead`, and for the permission registers `exec_regRead_field`. -/
theorem configurationRegistersReadBack : Obligations.ConfigurationRegistersReadBack := by
  intro s c
  exact ⟨exec_regRead s (.block c (.lockAddr .s0)), exec_regRead s (.block c (.lockSize .s0)),
    exec_regRead s (.block c (.lockAddr .s1)), exec_regRead s (.block c (.lockSize .s1)),
    exec_regRead s (.block c .preloadAddr), exec_regRead s (.block c .preloadSize),
    exec_regRead s (.block c (.autoloadAddr .s0)), exec_regRead s (.block c (.autoloadSize .s0)),
    exec_regRead s (.block c (.autoloadAddr .s1)), exec_regRead s (.block c (.autoloadSize .s1)),
    exec_regRead_field (r := .block c (.pmsBoundary .k0)) rfl, exec_regRead_field (r := .block c (.pmsBoundary .k1)) rfl,
    exec_regRead_field (r := .block c (.pmsBoundary .k2)) rfl, exec_regRead_field (r := .block c (.pmsAttr .k0)) rfl,
    exec_regRead_field (r := .block c (.pmsAttr .k1)) rfl, exec_regRead_field (r := .block c (.pmsAttr .k2)) rfl,
    exec_regRead_field (r := .block c .pmsLock) rfl⟩

/-- Settles O37: the two reads are those of their registers, whose fields stand at bit 0 (`fieldWord_zero`). -/
theorem interruptRegistersReadBack : Obligations.InterruptRegistersReadBack := by
  intro s
  constructor
  · rw [← fieldWord_zero]
    rfl
  · rw [← fieldWord_zero]
    rfl

/-- Settles O36: `Device.intOut_eq_true_iff`, a set status bit being one of the eleven. -/
theorem interruptLineIsTheEnabledStatus : Obligations.InterruptLineIsTheEnabledStatus := by
  intro s
  rw [Device.intOut_eq_true_iff]
  exact exists_congr fun n => ⟨fun ⟨hst, hena⟩ => ⟨BitVec.lt_of_getLsbD hst, hst, hena⟩, And.right⟩

/-! ## Writes -/

/-- A trigger bit written 0 runs no command (40_register_file R81). -/
theorem trigger_of_clear {new : Bool} (h : new = false) (cmd : Device → Device) (d : Device) :
    trigger new cmd d = d :=
  if_neg (Bool.eq_false_iff.1 h)

/-- REG_WRITE of a register's offset leaves the device as the write of that register does. -/
theorem exec_regWrite_of_writeReg {s : State} {r : Reg} {v : Word} {d : Device}
    (h : writeReg s.cfg (some r) v s.dev = d) :
    exec (.regWrite (regOffset r) v) s = .next { s with dev := d, answer := .nothing } := by
  rw [exec_regWrite, h]
  rfl

/-- A write of an aligned offset has the outcome of the instruction its transaction decodes to (30_encoding R76). -/
theorem exec_regWrite_of_decode {off : BitVec 12} {v : Word} {i : Instr} (h : decode (.wr 32 off v) = .ok i) (s : State) :
    exec (.regWrite off v) s = exec i s := by
  rw [exec_eq_run, exec_eq_run i, (names_of_decode h).encode]
  rfl

/-- Settles O16: an aligned write is the write of its register (`exec_write`), a read-only one leaves the device, and the
trigger registers run no command where bit 0 is 0 (`trigger_of_clear`). -/
theorem registerWriteCompletes : Obligations.RegisterWriteCompletes := by
  intro s off v
  refine ⟨fun ha => if_neg (mt (alignedOffset_iff off).1 ha),
    fun ha => ⟨_, exec_write rfl ((alignedOffset_iff off).2 ha) s⟩, fun i hd => exec_regWrite_of_decode hd s,
    fun c hoff => ?readOnly, fun c hv hoff => ?noCommand, fun c hv hoff => ?order⟩
  case readOnly =>
    obtain rfl | rfl | rfl | rfl | rfl := hoff
    · exact exec_regWrite s (.block c .acsCnt) v
    · exact exec_regWrite s (.block c .missCnt) v
    · exact exec_regWrite s (.block c .psramMissCnt) v
    · exact exec_regWrite s .faultVaddr v
    · exact exec_regWrite s .faultInfo v
  case noCommand =>
    obtain rfl | rfl := hoff
    · exact exec_regWrite_of_writeReg (r := .block c .syncCtrl) (trigger_of_clear hv ..)
    · exact exec_regWrite_of_writeReg (r := .block c .cntCtrl) (trigger_of_clear hv ..)
  case order =>
    subst hoff
    exact exec_regWrite_of_writeReg (r := .block c .preloadCtrl) (trigger_of_clear hv ..)

/-- Settles O25: each row of either cache and section commits the store of its register. -/
theorem rangeRegistersAreStores : Obligations.RangeRegistersAreStores := by
  intro s c k v
  cases c with
  | icache | dcache => cases k <;> exact ⟨rfl, rfl, rfl, rfl, rfl, rfl⟩

/-! ## The permission table -/

/-- PMS_SET_ATTR of every bus and section commits its effect on the device (43_permission_gate R106). -/
theorem exec_pmsAttrRow (b : Bus) (k : PmsSec) (v : Word) (s : State) :
    exec (pmsAttrRow b k v) s = .next (s.commit (pmsSetAttr b k v s.dev) .nothing) := by
  cases b with
  | ibus | dbus => cases k <;> rfl

/-- Settles O31: the lock flags decide `pmsSetAttr`, which masks bits 3 and 7 after or before it takes the byte. -/
theorem pmsAttributeStoredWhileUnlocked : Obligations.PmsAttributeStoredWhileUnlocked := by
  intro s b k v
  rw [exec_pmsAttrRow]
  constructor
  · intro hlocked
    rw [pmsSetAttr, if_neg hlocked]
    rfl
  · intro hunlocked
    have hmask : v.extractLsb' 0 8 &&& 0x77#8 = (v &&& 0x77#32).extractLsb' 0 8 := by
      rw [BitVec.extractLsb'_and]
      rfl
    rw [pmsSetAttr, if_pos hunlocked, hmask]
    rfl

/-- Settles O32: PMS_LOCK of either bus commits `pmsLock`. -/
theorem pmsLockIsSticky : Obligations.PmsLockIsSticky := by
  intro s b v
  cases b <;> rfl

/-- The bits of a world's permissions in the byte of a section (30_encoding R72). -/
theorem getLsbD_worldAttr (a : BitVec 8) (w : World) (n : Nat) :
    (worldAttr a w).getLsbD n = (decide (n < 3) && a.getLsbD ((if w = .world0 then 0 else 4) + n)) := by
  cases w <;> exact BitVec.getLsbD_extractLsb' ..

/-- Settles O57: `getLsbD_worldAttr`; the gate reads the class's bit in the section of the page
(`pmsAllows_of_pmsSection_some`) and rejects a page in none. -/
theorem attributeBitsPermitTheClass : Obligations.AttributeBitsPermitTheClass := by
  refine ⟨fun a n => ⟨?world0, ?world1⟩, fun t w k q => ?gate⟩
  case world0 => rw [getLsbD_worldAttr, if_pos rfl, Nat.zero_add]
  case world1 => rw [getLsbD_worldAttr, if_neg nofun, Nat.add_comm]
  case gate =>
    have hclass : classNumber k < 3 := by cases k <;> decide
    cases hsection : pmsSection t q with
    | none => simp [pmsAllows_of_pmsSection_none hsection]
    | some j =>
      simp only [pmsAllows_of_pmsSection_some hsection, getLsbD_worldAttr, hclass, decide_true, Bool.true_and,
        Option.some.injEq, exists_eq_left']
      cases j <;> cases k <;> rfl

end Sys2Proof.Machine
end

section
/-! Proofs of the control register writes (44_cache_state, 45_lock_preload_autoload): CTRL and FREEZE follow the state
machine of the cache (R108 to R115), LOCK_CTRL and AUTOLOAD_CTRL run their commands on an edge of each section (R120,
R121, R123, R124), and EVICT (R127). -/

namespace Sys2Proof.Machine

/-! ## The cache state controller -/

/-- The cache state after a CTRL write: an edge of bit 0 enables a disabled cache or disables an enabled one
(44_cache_state R109, R110). -/
def ctrlNext (enable : Bool) (x : CState) : CState :=
  if x = .disabled ∧ enable = true then .enabled else if x = .enabled ∧ enable = false then .disabled else x

/-- The cache state after a FREEZE write: an edge of bit 0 freezes an enabled cache or unfreezes a frozen one
(44_cache_state R111, R112). -/
def freezeNext (freeze : Bool) (x : CState) : CState :=
  if x = .enabled ∧ freeze = true then .frozen else if x = .frozen ∧ freeze = false then .enabled else x

/-- Storing the cache state a cache has changes nothing. -/
theorem setCache_cstate_of_eq {d : Device} {c : CacheId} {x : CState} (h : (d.cache c).cstate = x) :
    d.setCache c { d.cache c with cstate := x } = d := by
  subst h
  exact Device.setCache_cache d c

section
variable (c : CacheId) (d : Device)

/-- The command phase of a CTRL write (44_cache_state R109, R110). -/
theorem levelEdge_enable (new : Bool) :
    levelEdge new ((d.cache c).cstate != .disabled) (cmdEnable c) (cmdDisable c) d =
      d.setCache c { d.cache c with cstate := ctrlNext new (d.cache c).cstate } := by
  cases hx : (d.cache c).cstate with
  | disabled | enabled | frozen =>
    cases new <;> simp [levelEdge, cmdEnable, cmdDisable, ctrlNext, hx, setCache_cstate_of_eq hx]

/-- The command phase of a FREEZE write (44_cache_state R111, R112). -/
theorem levelEdge_freeze (new : Bool) :
    levelEdge new ((d.cache c).cstate == .frozen) (cmdFreeze c) (cmdUnfreeze c) d =
      d.setCache c { d.cache c with cstate := freezeNext new (d.cache c).cstate } := by
  cases hx : (d.cache c).cstate with
  | disabled | enabled | frozen =>
    cases new <;> simp [levelEdge, cmdFreeze, cmdUnfreeze, freezeNext, hx, setCache_cstate_of_eq hx]

/-- The whole effect of a CTRL write (44_cache_state R109, R110, R114, R115). -/
theorem writeCtrl_eq (v : Word) :
    writeCtrl c v d = d.setCache c { d.cache c with
      shut := v.getLsbD 1, wrap := v.getLsbD 2, cstate := ctrlNext (v.getLsbD 0) (d.cache c).cstate } := by
  have hedge := levelEdge_enable c (d.setCache c { d.cache c with shut := v.getLsbD 1, wrap := v.getLsbD 2 })
    (v.getLsbD 0)
  simpa only [writeCtrl, Device.cache_setCache_same, Device.setCache_setCache] using hedge

/-- The whole effect of a FREEZE write (44_cache_state R111 to R113). -/
theorem writeFreeze_eq (v : Word) :
    writeFreeze c v d = d.setCache c { d.cache c with
      freezeMode := v.getLsbD 1, cstate := freezeNext (v.getLsbD 0) (d.cache c).cstate } := by
  have hedge := levelEdge_freeze c (d.setCache c { d.cache c with freezeMode := v.getLsbD 1 }) (v.getLsbD 0)
  simpa only [writeFreeze, Device.cache_setCache_same, Device.setCache_setCache] using hedge

end

/-- A row of a register's write commits the write of the register (30_encoding R76). -/
theorem exec_of_encode_wr {i : Instr} {r : Reg} {v : Word} (he : encode i = .wr 32 (regOffset r) v) (s : State) :
    exec i s = .next (s.commit (writeReg s.cfg (some r) v s.dev) .nothing) := by
  rw [exec_write he (aligned_regOffset r), regAt_regOffset]

/-- Settles O19: the rows are one write, whose effect is `writeCtrl_eq`. -/
theorem ctrlWriteFollowsTheStateMachine : Obligations.CtrlWriteFollowsTheStateMachine := by
  intro s c v i hi
  rw [exec_of_encode_wr (encode_of_mem_ctrlRows i hi)]
  exact congrArg (fun d => Host.Outcome.next (s.commit d .nothing)) (writeCtrl_eq c s.dev v)

/-- Settles O20: the rows are one write, whose effect is `writeFreeze_eq`. -/
theorem freezeWriteFollowsTheStateMachine : Obligations.FreezeWriteFollowsTheStateMachine := by
  intro s c v i hi
  rw [exec_of_encode_wr (encode_of_mem_freezeRows i hi)]
  exact congrArg (fun d => Host.Outcome.next (s.commit d .nothing)) (writeFreeze_eq c s.dev v)

/-! ## Lock and autoload sections -/

/-- The section after the bit of its enable is written: an edge to 1 captures the configured range where it is valid, an
edge to 0 unlocks (45_lock_preload_autoload R120, R121). -/
def LockSection.written (p : Params) (c : CacheId) (bit : Bool) (l : LockSection) : LockSection :=
  if bit = l.ena then l
  else if bit = false then { l with ena := false }
  else if validRange p c { start := l.addr, size := l.size } then
    { l with ena := true, range := { start := l.addr, size := l.size } }
  else l

/-- The section after the bit of its enable is written: an edge to 1 captures the configured range where it is valid, an
edge to 0 disarms (45_lock_preload_autoload R123, R124). -/
def AutoloadSection.written (p : Params) (c : CacheId) (bit : Bool) (l : AutoloadSection) : AutoloadSection :=
  if bit = l.ena then l
  else if bit = false then { l with ena := false }
  else if validRange p c { start := l.addr, size := l.size } then
    { l with ena := true, range := { start := l.addr, size := l.size } }
  else l

/-- An edge to 1 reports a configured range that is not valid (60_exceptions R140). -/
def rangeReported (p : Params) (c : CacheId) (bit ena : Bool) (r : Range) : Bool :=
  bit && !ena && !validRange p c r

/-- The status bits with the configuration-range bit of cache c set where a range is reported (60_exceptions R140). -/
def reportRange (c : CacheId) (reported : Bool) (x : BitVec 11) : BitVec 11 :=
  if reported then x ||| (1#11 <<< cfgRangeBit c) else x

/-- A reported range sets the configuration-range bit and no other. -/
theorem getLsbD_reportRange (c : CacheId) (reported : Bool) (x : BitVec 11) (n : Nat) :
    (reportRange c reported x).getLsbD n = (x.getLsbD n || (reported && decide (n = cfgRangeBit c))) := by
  cases reported with
  | false => simp [reportRange]
  | true => simp [reportRange, getLsbD_status _ _ _ (cfgRangeBit_lt c)]

/-- Replaces the status bits. -/
def Device.setIntSt (d : Device) (x : BitVec 11) : Device :=
  { d with intSt := x }

@[simp] theorem Device.setIntSt_cache (d : Device) (x : BitVec 11) (c : CacheId) :
    (d.setIntSt x).cache c = d.cache c := by cases c <;> rfl

@[simp] theorem Device.setIntSt_intSt (d : Device) (x : BitVec 11) : (d.setIntSt x).intSt = x := rfl

/-- Storing the status bits a device has changes nothing. -/
@[simp] theorem Device.setIntSt_self (d : Device) : d.setIntSt d.intSt = d := rfl

/-- Replacing a cache leaves the status bits. -/
@[simp] theorem Device.setCache_setIntSt_self (d : Device) (c : CacheId) (x : CacheState) :
    (d.setCache c x).setIntSt d.intSt = d.setCache c x := by
  cases c <;> rfl

/-- SET_STATUS replaces the status bits (60_exceptions R134). -/
theorem setStatus_eq_setIntSt (n : Nat) (d : Device) : setStatus n d = d.setIntSt (d.intSt ||| (1#11 <<< n)) := rfl

/-- Storing the lock section a cache has changes nothing. -/
theorem CacheState.setLock_lock (x : CacheState) (k : Sec) : x.setLock k (x.lock k) = x := by
  cases k <;> rfl

/-- Storing the autoload section a cache has changes nothing. -/
theorem CacheState.setAl_al (x : CacheState) (k : Sec) : x.setAl k (x.al k) = x := by
  cases k <;> rfl

/-- A lock section whose enable stays is left, and nothing is reported. -/
theorem LockSection.written_of_eq {bit : Bool} {l : LockSection} (h : bit = l.ena) (p : Params) (c : CacheId) :
    l.written p c bit = l :=
  if_pos h

/-- An autoload section whose enable stays is left, and nothing is reported. -/
theorem AutoloadSection.written_of_eq {bit : Bool} {l : AutoloadSection} (h : bit = l.ena) (p : Params) (c : CacheId) :
    l.written p c bit = l :=
  if_pos h

/-- A written lock section, by whether its configured range is valid. -/
theorem LockSection.written_of_valid {p : Params} {c : CacheId} {l : LockSection} {fits : Bool}
    (h : validRange p c { start := l.addr, size := l.size } = fits) (bit : Bool) :
    l.written p c bit = if bit = l.ena then l
      else if bit = false then { l with ena := false }
      else if fits then { l with ena := true, range := { start := l.addr, size := l.size } } else l := by
  subst h
  rfl

/-- A written autoload section, by whether its configured range is valid. -/
theorem AutoloadSection.written_of_valid {p : Params} {c : CacheId} {l : AutoloadSection} {fits : Bool}
    (h : validRange p c { start := l.addr, size := l.size } = fits) (bit : Bool) :
    l.written p c bit = if bit = l.ena then l
      else if bit = false then { l with ena := false }
      else if fits then { l with ena := true, range := { start := l.addr, size := l.size } } else l := by
  subst h
  rfl

/-- Only an edge to 1 can report a range. -/
theorem rangeReported_of_eq {bit ena : Bool} (h : bit = ena) (p : Params) (c : CacheId) (r : Range) :
    rangeReported p c bit ena r = false := by
  subst h
  cases bit <;> rfl

section
variable (p : Params) (c : CacheId) (k : Sec) (bit : Bool) (d : Device)

/-- The command phase of one section of LOCK_CTRL (45_lock_preload_autoload R120, R121). -/
theorem levelEdge_lock :
    levelEdge bit ((d.cache c).lock k).ena (cmdLock p c k) (cmdUnlock c k) d =
      (d.setCache c ((d.cache c).setLock k (((d.cache c).lock k).written p c bit))).setIntSt
        (reportRange c (rangeReported p c bit ((d.cache c).lock k).ena
          { start := ((d.cache c).lock k).addr, size := ((d.cache c).lock k).size }) d.intSt) := by
  by_cases hsame : bit = ((d.cache c).lock k).ena
  · rw [levelEdge, if_pos hsame, LockSection.written_of_eq hsame, rangeReported_of_eq hsame, CacheState.setLock_lock,
      Device.setCache_cache]
    rfl
  · cases bit with
    | false =>
      simp [levelEdge, hsame, cmdUnlock, LockSection.written, rangeReported, reportRange]
    | true =>
      have hoff : ((d.cache c).lock k).ena = false := by simpa using hsame
      cases hr : validRange p c { start := ((d.cache c).lock k).addr, size := ((d.cache c).lock k).size } with
      | false =>
        simp [levelEdge, hoff, cmdLock, hr, LockSection.written, rangeReported, reportRange, setStatus_eq_setIntSt,
          CacheState.setLock_lock]
      | true =>
        simp [levelEdge, hoff, cmdLock, hr, LockSection.written, rangeReported, reportRange]

/-- The command phase of one section of AUTOLOAD_CTRL (45_lock_preload_autoload R123, R124). -/
theorem levelEdge_arm :
    levelEdge bit ((d.cache c).al k).ena (cmdArm p c k) (cmdDisarm c k) d =
      (d.setCache c ((d.cache c).setAl k (((d.cache c).al k).written p c bit))).setIntSt
        (reportRange c (rangeReported p c bit ((d.cache c).al k).ena
          { start := ((d.cache c).al k).addr, size := ((d.cache c).al k).size }) d.intSt) := by
  by_cases hsame : bit = ((d.cache c).al k).ena
  · rw [levelEdge, if_pos hsame, AutoloadSection.written_of_eq hsame, rangeReported_of_eq hsame, CacheState.setAl_al,
      Device.setCache_cache]
    rfl
  · cases bit with
    | false =>
      simp [levelEdge, hsame, cmdDisarm, AutoloadSection.written, rangeReported, reportRange]
    | true =>
      have hoff : ((d.cache c).al k).ena = false := by simpa using hsame
      cases hr : validRange p c { start := ((d.cache c).al k).addr, size := ((d.cache c).al k).size } with
      | false =>
        simp [levelEdge, hoff, cmdArm, hr, AutoloadSection.written, rangeReported, reportRange, setStatus_eq_setIntSt,
          CacheState.setAl_al]
      | true =>
        simp [levelEdge, hoff, cmdArm, hr, AutoloadSection.written, rangeReported, reportRange]

end

/-- The status bits after both sections of a control register of cache c were written: each reports its own range. -/
def reportRanges (p : Params) (c : CacheId) (v : Word) (ena0 ena1 : Bool) (r0 r1 : Range) (x : BitVec 11) : BitVec 11 :=
  reportRange c (rangeReported p c (v.getLsbD 2) ena1 r1) (reportRange c (rangeReported p c (v.getLsbD 0) ena0 r0) x)

/-- The whole effect of a LOCK_CTRL write (45_lock_preload_autoload R120, R121; 30_encoding R75). -/
theorem writeLockCtrl_eq (p : Params) (c : CacheId) (v : Word) (d : Device) :
    writeLockCtrl p c v d =
      (d.setCache c { d.cache c with
          lock0 := (d.cache c).lock0.written p c (v.getLsbD 0)
          lock1 := (d.cache c).lock1.written p c (v.getLsbD 2) }).setIntSt
        (reportRanges p c v (d.cache c).lock0.ena (d.cache c).lock1.ena
          { start := (d.cache c).lock0.addr, size := (d.cache c).lock0.size }
          { start := (d.cache c).lock1.addr, size := (d.cache c).lock1.size } d.intSt) := by
  have h0 : levelEdge (v.getLsbD 0) (d.cache c).lock0.ena (cmdLock p c .s0) (cmdUnlock c .s0) d = _ :=
    levelEdge_lock p c .s0 (v.getLsbD 0) d
  rw [writeLockCtrl, h0]
  generalize he : (d.setCache c _).setIntSt _ = e
  have hena : (d.cache c).lock1.ena = ((e.cache c).lock .s1).ena := by
    rw [← he]
    cases c <;> rfl
  rw [hena, levelEdge_lock, ← he]
  cases c <;> rfl

/-- The command phase of both sections of AUTOLOAD_CTRL (45_lock_preload_autoload R123, R124; 30_encoding R75). -/
theorem levelEdge_arm_both (p : Params) (c : CacheId) (v : Word) (d : Device) :
    levelEdge (v.getLsbD 2) (d.cache c).al1.ena (cmdArm p c .s1) (cmdDisarm c .s1)
        (levelEdge (v.getLsbD 0) (d.cache c).al0.ena (cmdArm p c .s0) (cmdDisarm c .s0) d) =
      (d.setCache c { d.cache c with
          al0 := (d.cache c).al0.written p c (v.getLsbD 0)
          al1 := (d.cache c).al1.written p c (v.getLsbD 2) }).setIntSt
        (reportRanges p c v (d.cache c).al0.ena (d.cache c).al1.ena
          { start := (d.cache c).al0.addr, size := (d.cache c).al0.size }
          { start := (d.cache c).al1.addr, size := (d.cache c).al1.size } d.intSt) := by
  have h0 : levelEdge (v.getLsbD 0) (d.cache c).al0.ena (cmdArm p c .s0) (cmdDisarm c .s0) d = _ :=
    levelEdge_arm p c .s0 (v.getLsbD 0) d
  rw [h0]
  generalize he : (d.setCache c _).setIntSt _ = e
  have hena : (d.cache c).al1.ena = ((e.cache c).al .s1).ena := by
    rw [← he]
    cases c <;> rfl
  rw [hena, levelEdge_arm, ← he]
  cases c <;> rfl

/-- The whole effect of an AUTOLOAD_CTRL write (45_lock_preload_autoload R123, R124; 10_state R37). -/
theorem writeAutoloadCtrl_eq (p : Params) (c : CacheId) (v : Word) (d : Device) :
    writeAutoloadCtrl p c v d =
      (d.setCache c { d.cache c with
          al0 := AutoloadSection.written p c (v.getLsbD 0) { (d.cache c).al0 with trig := v.extractLsb' 4 2 }
          al1 := AutoloadSection.written p c (v.getLsbD 2) { (d.cache c).al1 with trig := v.extractLsb' 6 2 }
          alOrder := v.getLsbD 8 }).setIntSt
        (reportRanges p c v (d.cache c).al0.ena (d.cache c).al1.ena
          { start := (d.cache c).al0.addr, size := (d.cache c).al0.size }
          { start := (d.cache c).al1.addr, size := (d.cache c).al1.size } d.intSt) := by
  have hedges := levelEdge_arm_both p c v (d.setCache c { d.cache c with
    al0 := { (d.cache c).al0 with trig := v.extractLsb' 4 2 }
    al1 := { (d.cache c).al1 with trig := v.extractLsb' 6 2 }
    alOrder := v.getLsbD 8 })
  rw [Device.cache_setCache_same, Device.setCache_setCache, Device.setCache_intSt] at hedges
  exact hedges

/-- The status bits after a LOCK_CTRL or AUTOLOAD_CTRL write: the configuration-range bit is set where a section reports
its range, and no other bit changes (60_exceptions R140). -/
theorem getLsbD_reportRanges (p : Params) (c : CacheId) (v : Word) (ena0 ena1 : Bool) (r0 r1 : Range) (x : BitVec 11)
    (n : Nat) :
    (reportRanges p c v ena0 ena1 r0 r1 x).getLsbD n = (x.getLsbD n || (decide (n = cfgRangeBit c) &&
      (rangeReported p c (v.getLsbD 0) ena0 r0 || rangeReported p c (v.getLsbD 2) ena1 r1))) := by
  rw [reportRanges, getLsbD_reportRange, getLsbD_reportRange, Bool.or_assoc, ← Bool.and_or_distrib_right,
    Bool.and_comm]

/-- Settles O21: the rows are one write, whose effect is `writeLockCtrl_eq`; the status bits are
`getLsbD_reportRanges`. -/
theorem lockCtrlWriteLocksAndUnlocks : Obligations.LockCtrlWriteLocksAndUnlocks := by
  intro s c v i hi
  refine ⟨_, exec_of_encode_wr (encode_of_mem_lockRows i hi) s, ?frame, fun k l bit fits hl hbit hfits => ?sections,
    fun n => ?status⟩
  all_goals simp only [writeReg, writeBlock, writeLockCtrl_eq, State.commit_dev]
  case frame => cases c <;> rfl
  case sections =>
    have hvalid : validRange s.cfg c { start := l.addr, size := l.size } = fits :=
      (validRange_eq_decide ..).trans hfits.symm
    subst hl hbit
    rw [Device.setIntSt_cache, Device.cache_setCache_same]
    cases k <;> exact LockSection.written_of_valid hvalid _
  case status =>
    rw [Device.setIntSt_intSt, getLsbD_reportRanges, cfgRangeBit_eq]
    simp only [rangeReported, validRange_eq_decide]

/-- Settles O22: the rows are one write, whose effect is `writeAutoloadCtrl_eq`; the status bits are
`getLsbD_reportRanges`. -/
theorem autoloadCtrlWriteArmsAndDisarms : Obligations.AutoloadCtrlWriteArmsAndDisarms := by
  intro s c v i hi
  refine ⟨_, exec_of_encode_wr (encode_of_mem_autoloadRows i hi) s, ?frame,
    fun k l bit fits hl hbit hfits => ?sections, fun n => ?status⟩
  all_goals simp only [writeReg, writeBlock, writeAutoloadCtrl_eq, State.commit_dev]
  case frame => cases c <;> rfl
  case sections =>
    have hvalid : validRange s.cfg c { start := l.addr, size := l.size } = fits :=
      (validRange_eq_decide ..).trans hfits.symm
    subst hl hbit
    rw [Device.setIntSt_cache, Device.cache_setCache_same]
    cases k <;> exact AutoloadSection.written_of_valid hvalid _
  case status =>
    rw [Device.setIntSt_intSt, getLsbD_reportRanges, cfgRangeBit_eq]
    simp only [rangeReported, validRange_eq_decide]

/-! ## EVICT -/

/-- A page is pinned unless no locked section's range touches it (45_lock_preload_autoload R119). -/
theorem pinned_eq_false_iff (p : Params) (c : CacheId) (x : CacheState) (q : Nat) :
    pinned p c x q = false ↔ ∀ k, (x.lock k).ena = true → q ∉ pages p c (x.lock k).range := by
  rw [Bool.eq_false_iff, ne_eq, pinned_iff]
  simp only [not_exists, not_and]

/-- Settles O26: the guard of EVICT is the stated one (`pinned_iff`), and each of the three refused cases breaks it. -/
theorem evictClearsOneUnpinnedPage : Obligations.EvictClearsOneUnpinnedPage := by
  intro s c p
  refine ⟨fun ⟨hres, hstate, hpin⟩ => ?enabled, fun hbad => ?refused⟩
  case enabled =>
    have hguard := (pinned_eq_false_iff s.cfg c (s.dev.cache c) p.toNat).2 hpin
    refine ⟨_, if_pos ⟨hres, hguard, hstate⟩, ?frame, fun q => ?residency⟩
    case frame => cases c <;> rfl
    case residency =>
      rw [State.commit_dev, Device.residentAt, Device.cache_setCache_same]
      exact getLsbD_clearResident ..
  case refused =>
    refine if_neg fun ⟨hres, hguard, hstate⟩ => ?_
    obtain hnot | hfrozen | hpin := hbad
    · exact Bool.eq_false_iff.1 hnot hres
    · exact hstate hfrozen
    · exact Bool.eq_false_iff.1 hguard ((pinned_iff ..).2 hpin)

end Sys2Proof.Machine
end

section
/-! Proofs of the bus accesses (42_translation, 20_memory): the routing checks (R95), TRANSLATE by page number and by the
wrap flag (R93, R94), the accesses turned away (R95, 43 R104, 44 R116), and the bytes read and written (R58 to R60, R64). -/

namespace Sys2Proof.Machine

/-! ## Routing and translation -/

/-- The length of a bus operation is the number of its bytes for a write, and its own for a read or fetch. -/
theorem accessLen_eq (k : AccessClass) (len : Nat) (wdata : List Byte) :
    accessLen k len wdata = if k = .write then wdata.length else len := by
  cases k <;> rfl

/-- Settles O40: the three branches of BUS_ACCESS before the gates, in their order. -/
theorem busAccessRoutingChecks : Obligations.BusAccessRoutingChecks := by
  intro s b k w va len wdata n base hn hbase
  rw [← accessLen_eq] at hn
  rw [← windowBase_bus] at hbase
  subst hn hbase
  rw [exec_busRow, busAccess]
  refine ⟨fun hlen => ?length, fun h1 hmax hwindow => ?window, fun h1 hmax hlow hhigh hcross => ?crossing⟩
  case length => rw [if_pos (by omega)]
  case window =>
    rw [if_neg (by omega), if_pos hwindow]
    rfl
  case crossing => rw [if_neg (by omega), if_neg (by simp only [windowSize]; omega), if_pos hcross]

/-- The window bases of a valid configuration are multiples of the page size (00_scope R9). -/
theorem windowBase_mod_pageSize {p : Params} (h : p.valid = true) (c : CacheId) : windowBase p c % 65536 = 0 := by
  simp only [Params.valid, Bool.and_eq_true, beq_iff_eq] at h
  cases c <;> simp_all [windowBase]

/-- Address k of page i of a window: its page index is i and its offset in the page is k (42_translation R90). -/
theorem pageIndex_of_toNat {p : Params} {c : CacheId} {i k : Nat} {va : Word} (hv : p.valid = true) (hk : k < 65536)
    (hva : va.toNat = windowBase p c + i * 65536 + k) :
    windowBase p c ≤ va.toNat ∧ pageIndex p c va.toNat = i ∧ va.toNat % pageSize = k := by
  have hbase := windowBase_mod_pageSize hv c
  unfold pageIndex
  simp only [pageSize]
  omega

/-- TRANSLATE of address k of page i (42_translation R91): the table decides by entry i, and the offset is reduced in a
flash page with the wrap flag set. -/
theorem translate_of_toNat {p : Params} {c : CacheId} {i k : Nat} {va : Word} (hv : p.valid = true) (hi : i < 512)
    (hk : k < 65536) (hva : va.toNat = windowBase p c + i * 65536 + k) (d : Device) :
    translate p c va d = if (d.entry i).invalid then .translationFault
      else .at (storeMap p c i) (if storeMap p c i = .flash ∧ (d.cache c).wrap = true then
        ((d.entry i).page.toNat * 65536 + k) % p.flashSize else (d.entry i).page.toNat * 65536 + k) := by
  obtain ⟨hlow, hpage, hoff⟩ := pageIndex_of_toNat hv hk hva
  rw [translate_inside hlow (hpage ▸ hi), mappedOffset, hpage, hoff]

/-- A page is flash-backed where its bit of STORE_MAP is clear (42_translation R92). -/
theorem storeMap_eq_flash {p : Params} {c : CacheId} {i : Nat} :
    storeMap p c i = .flash ↔ (if c = .icache then p.ipsramPages else p.dpsramPages).getLsbD i = false := by
  rw [← Bool.not_eq_true, ← storeMap_eq_psram]
  cases storeMap p c i <;> decide

/-- Settles O50: `translate_of_toNat`, where wrapping applies to no PSRAM page and to none with the flag clear. -/
theorem validEntryTranslatesByPageNumber : Obligations.ValidEntryTranslatesByPageNumber := by
  intro s c i k va st hv hi hk hva hst
  rw [← windowBase_eq] at hva
  rw [translate_of_toNat hv hi hk hva]
  refine ⟨fun hvalid hplain => ?valid, fun hinvalid => if_pos hinvalid⟩
  case valid =>
    have hstore : storeMap s.cfg c i = st := by
      cases st with
      | psram => exact storeMap_eq_psram.2 (hst.1 rfl)
      | flash => exact storeMap_eq_flash.2 (Bool.eq_false_iff.2 fun h => nomatch hst.2 h)
    have hnowrap : ¬ (st = .flash ∧ (s.dev.cache c).wrap = true) := by
      rintro ⟨rfl, hwrap⟩
      obtain h | h := hplain
      · cases h
      · exact Bool.eq_false_iff.1 h hwrap
    rw [hstore, if_neg (Bool.eq_false_iff.1 hvalid), if_neg hnowrap]

/-- Settles O51: `translate_of_toNat`, whose reduction applies where the page is flash-backed. -/
theorem wrapReducesFlashOffsetsOnly : Obligations.WrapReducesFlashOffsetsOnly := by
  intro s c i k va hv hi hk hva hvalid hwrap
  rw [← windowBase_eq] at hva
  rw [translate_of_toNat hv hi hk hva, if_neg (Bool.eq_false_iff.1 hvalid)]
  constructor
  · intro hflash
    rw [storeMap_eq_flash.2 hflash, if_pos ⟨rfl, hwrap⟩]
  · intro hpsram
    rw [storeMap_eq_psram.2 hpsram, if_neg (fun h => nomatch h.1)]

/-! ## Accesses turned away -/

/-- A routed access the cache state controller turns away changes nothing but the answer (42_translation R95). -/
theorem exec_turned_away {s : State} {b : Bus} {k : AccessClass} {w : World} {va : Word} {len : Nat} {wdata : List Byte}
    {a : Answer} (hr : routed s.cfg b va (accessLen k len wdata))
    (hp : pmsAllows (s.dev.pms b) w k (pageIndex s.cfg b.cache va.toNat) = true)
    (hi : (s.dev.entry (pageIndex s.cfg b.cache va.toNat)).invalid = false)
    (hc : cacheRejects (s.dev.cache b.cache) k = some a) :
    exec (busRow b k w va len wdata) s = .next { s with answer := a } := by
  obtain ⟨hbase, hpage⟩ := routed_page hr
  rw [exec_busRow, busAccess_routed hr, gatedAccess]
  simp only [hp, if_true, translate_inside hbase hpage, hi, Bool.false_eq_true, if_false, hc]
  rfl

/-- Settles O43: the three reasons of the cache state controller, in their order. -/
theorem cacheStateTurnsAccessesAway : Obligations.CacheStateTurnsAccessesAway := by
  intro s b k w va len wdata q hr hq hp hi
  obtain rfl : pageIndex s.cfg b.cache va.toNat = q := hq.symm
  refine ⟨fun hshut => ?shut, fun hopen hdisabled => ?disabled, fun hopen hfrozen hwrite hmode => ?frozen⟩
  case shut => exact exec_turned_away hr hp hi (by rw [cacheRejects, if_pos hshut])
  case disabled => exact exec_turned_away hr hp hi (by simp [cacheRejects, hopen, hdisabled])
  case frozen => exact exec_turned_away hr hp hi (by simp [cacheRejects, hopen, hfrozen, hwrite, hmode])

/-- What the cache state controller answers (44_cache_state R114, R116). -/
theorem cacheRejects_eq_some {x : CacheState} {k : AccessClass} {a : Answer} (h : cacheRejects x k = some a) :
    a = .shut ∨ a = .cacheDisabled ∨ a = .frozenWriteRejected := by
  unfold cacheRejects at h
  split_ifs at h <;> simp_all

/-- An access that answers PermissionFault is one the gate rejected. -/
theorem bus_permissionFault {s t : State} {b : Bus} {k : AccessClass} {w : World} {va : Word} {len : Nat}
    {wdata : List Byte} (h : exec (busRow b k w va len wdata) s = .next t) (ha : t.answer = .permissionFault) :
    routed s.cfg b va (accessLen k len wdata) ∧
      pmsAllows (s.dev.pms b) w k (pageIndex s.cfg b.cache va.toNat) = false ∧
      t = s.commit (pmsFault b w k va (pageIndex s.cfg b.cache va.toNat) s.dev) .permissionFault := by
  rw [exec_busRow] at h
  obtain rfl | hgate | ⟨_, _, _, rfl⟩ | ⟨st, off, _, _, _, ⟨a, hc, rfl⟩ | ⟨_, rfl⟩⟩ := busAccess_cases h
  · cases ha
  · exact hgate
  · cases ha
  · obtain rfl : a = .permissionFault := ha
    obtain h | h | h := cacheRejects_eq_some hc <;> cases h
  · obtain ⟨data, hok, _⟩ := completeAccess_answer b.cache k va (accessLen k len wdata) (accessData k wdata) st off s
    cases hok.symm.trans ha

/-- Settles O49: the gate and its fault read no entry, so the same access is rejected whatever the table holds. -/
theorem permissionOutcomeIgnoresTheMmuTable : Obligations.PermissionOutcomeIgnoresTheMmuTable := by
  intro s t m b k w va len wdata hexec ha
  obtain ⟨hr, hp, rfl⟩ := bus_permissionFault hexec ha
  have hpms : ({ s.dev with mmu := m } : Device).pms b = s.dev.pms b := by cases b <;> rfl
  refine (exec_gate_rejected (s := { s with dev := { s.dev with mmu := m } }) hr (hpms.symm ▸ hp)).trans ?_
  cases b <;> rfl

/-- Settles O48: an access that does not answer Ok commits the device as it was or with one latched fault. -/
theorem rejectedAccessTouchesNothing : Obligations.RejectedAccessTouchesNothing := by
  intro s t b k w va len wdata hexec hanswer
  rw [exec_busRow] at hexec
  obtain rfl | ⟨_, _, rfl⟩ | ⟨_, _, _, rfl⟩ | ⟨st, off, _, _, _, ⟨a, _, rfl⟩ | ⟨_, rfl⟩⟩ := busAccess_cases hexec
  · rfl
  · rfl
  · rfl
  · rfl
  · obtain ⟨data, hok, _⟩ := completeAccess_answer b.cache k va (accessLen k len wdata) (accessData k wdata) st off s
    exact absurd hok (hanswer data)

/-! ## The bytes of a read -/

/-- Byte j of a run that is listed byte by byte. -/
theorem getD_map_range {n j : Nat} (hj : j < n) (f : Nat → Byte) : ((List.range n).map f).getD j 0#8 = f j := by
  rw [List.getD_eq_getElem _ _ (by simpa using hj), List.getElem_map, List.getElem_range]

/-- A read or fetch that every gate lets through answers `readData` and commits its account (42_translation R95). -/
theorem exec_read_completed {s : State} {b : Bus} {k : AccessClass} {w : World} {va : Word} {len : Nat}
    {st : StoreId} {off : Nat} (hk : k = .read ∨ k = .fetch) (hr : routed s.cfg b va len)
    (hp : pmsAllows (s.dev.pms b) w k (pageIndex s.cfg b.cache va.toNat) = true)
    (ht : translate s.cfg b.cache va s.dev = .at st off) (hshut : (s.dev.cache b.cache).shut = false)
    (hstate : (s.dev.cache b.cache).cstate ≠ .disabled) :
    exec (busRow b k w va len []) s =
      .next (s.commit (account s.cfg b.cache va st s.dev) (.ok (readData st off len s))) := by
  have hwrite : k ≠ .write := by
    obtain rfl | rfl := hk <;> decide
  have hlen : accessLen k len [] = len := by rw [accessLen_eq, if_neg hwrite]
  have hopen := cacheRejects_eq_none.2 ⟨hshut, hstate, fun h => hwrite h.2.1⟩
  rw [exec_completed (by rwa [hlen]) hp ht hopen, hlen, completeAccess_read hwrite]

/-- Settles O44: the read commits its account (`exec_read_completed`); its bytes are those of `readData`'s three
sources. -/
theorem readAnswersTheStoreBytes : Obligations.ReadAnswersTheStoreBytes := by
  intro s b k w va len q off size st encrypted hk hr hq hp ht hshut hstate henc hsize
  subst hq
  rw [← flashCrypted_iff] at henc
  rw [← storeSize_eq] at hsize
  subst hsize
  refine ⟨_, readData st off len s, exec_read_completed hk hr hp ht hshut hstate, rfl, readData_length .., rfl, rfl, rfl,
    rfl, rfl, rfl, fun he j hj => ?decrypted, fun hne hin j hj => ?stored, fun hne hout j hj => ?drawn⟩
  case decrypted => rw [readData_encrypted (henc.1 he), decrypt, getD_map_range hj]
  case stored =>
    rw [readData_store (mt henc.2 hne) hin, Memory.readBytes, getD_map_range hj]
    rfl
  case drawn => rw [readData_drawn (mt henc.2 hne) hout, drawnBytes, getD_map_range hj]

/-! ## The bytes of a write -/

/-- Stage 4 of a write of an enabled cache stores the bytes (42_translation R98). -/
theorem writeData_of_enabled {x : CacheState} (h : x.cstate = .enabled) (st : StoreId) (off : Nat) (wdata : List Byte)
    (s : State) : writeData x st off wdata s = memWrite st off wdata s :=
  if_neg fun hf => absurd (h.symm.trans hf.1) (by decide)

/-- Stage 4 of a write of a cache frozen in mode 0 stores nothing (42_translation R101). -/
theorem writeData_of_frozen {x : CacheState} (h : x.cstate = .frozen) (hm : x.freezeMode = false) (st : StoreId)
    (off : Nat) (wdata : List Byte) (s : State) : writeData x st off wdata s = s :=
  if_pos ⟨h, hm⟩

/-- Settles O45: the write completes (`exec_completed`), and its bytes are those of `writeData` in the two cache states. -/
theorem writeStoresItsBytes : Obligations.WriteStoresItsBytes := by
  intro s b w va wdata q off st hr hq hp ht hshut hstate hwf
  subst hq
  have hopen : cacheRejects (s.dev.cache b.cache) .write = none := by
    refine cacheRejects_eq_none.2 ⟨hshut, ?_, ?_⟩
    · obtain h | ⟨h, _⟩ := hstate <;> rw [h] <;> decide
    · rintro ⟨hf, _, hmode⟩
      obtain h | ⟨_, h⟩ := hstate
      · cases h.symm.trans hf
      · exact Bool.eq_false_iff.1 h hmode
  have hexec : exec (busRow b .write w va 0 wdata) s =
      .next (completeAccess b.cache .write va wdata.length wdata st off s) := exec_completed hr hp ht hopen
  obtain ⟨hcfg, hprogram, hposition, hdraws⟩ :=
    completeAccess_fields b.cache .write va wdata.length wdata st off s
  refine ⟨_, hexec, rfl, hcfg, hprogram, hposition, hdraws, fun st' x => ?bytes⟩
  case bytes =>
    refine (completeAccess_write_byteAt st' x).trans ?_
    obtain h | ⟨h, hmode⟩ := hstate
    · rw [writeData_of_enabled h]
      by_cases hin : off + wdata.length ≤ storeSize s.cfg st
      · simp only [h, hin, true_and]
        exact byteAt_memWrite_getD hwf hin st' x
      · rw [memWrite_outside st off wdata s (Nat.lt_of_not_le hin), if_neg fun hx => hin hx.2.1]
    · rw [writeData_of_frozen h hmode, if_neg fun hx => absurd (h.symm.trans hx.1) (by decide)]

/-- A run of written bytes reads back (20_memory R58). -/
theorem Memory.readBytes_writeBytes {m : List Host.Cell} (hwf : Memory.wf m = true) (off : Nat) (bytes : List Byte) :
    Memory.readBytes (Memory.writeBytes m off bytes) off bytes.length = bytes := by
  refine List.ext_getElem (Memory.length_readBytes ..) fun j hj hj' => ?_
  simp only [Memory.readBytes, List.getElem_map, List.getElem_range]
  rw [Memory.read_writeBytes _ _ _ _ hwf, dif_pos ⟨by omega, by omega⟩]
  simp

/-- A completed access leaves the gates of both buses as they are. -/
theorem GatesAlike.account_either (p : Params) (c c' : CacheId) (va : Word) (st : StoreId) (d : Device) :
    GatesAlike c' d (Machine.account p c va st d) := by
  by_cases hc : c' = c
  · subst hc
    exact GatesAlike.account ..
  · have hkeep := CacheOnly.account p c va st d
    have hother := hkeep.other c' hc
    exact ⟨hkeep.mmu, hkeep.ipms, hkeep.dpms, by rw [hother], by rw [hother], by rw [hother], by rw [hother]⟩

/-- Settles O52: the completed write leaves every gate (`GatesAlike.account_either`), so the read completes in the next
state, where the written bytes stand at its offset (`Memory.readBytes_writeBytes`). -/
theorem writeIsSeenByEitherBus : Obligations.WriteIsSeenByEitherBus := by
  intro s t b b' k w w' va va' wdata data off st hexec hok henabled hwf ht hin hk hr' hp' ht' hshut' hstate' hplain
  obtain ⟨st₁, off₁, _, _, ht₁, _, rfl⟩ := bus_completed hexec hok
  obtain ⟨rfl, rfl⟩ : st = st₁ ∧ off = off₁ := Translated.at.inj (ht.symm.trans ht₁)
  generalize hu : completeAccess b.cache .write va _ _ st off s = u
  have hdev : u.dev = account s.cfg b.cache va st s.dev := hu ▸ completeAccess_dev ..
  have hcfg : u.cfg = s.cfg := hu ▸ (completeAccess_fields ..).1
  have hstore : u.store st = Memory.writeBytes (s.store st) off wdata := by
    rw [← hu, completeAccess, State.store_commit, writeData_of_enabled henabled, memWrite]
    exact (congrArg (State.store · st) (if_pos hin)).trans (State.store_setStore_same ..)
  have hgates : GatesAlike b'.cache s.dev u.dev := hdev ▸ GatesAlike.account_either ..
  have hread : readData st off wdata.length u = wdata := by
    rw [readData_store, hstore, Memory.readBytes_writeBytes hwf]
    · rw [hcfg]
      rintro ⟨rfl, hcrypt⟩
      obtain h | h := hplain
      · exact Bool.eq_false_iff.1 h hcrypt
      · cases h
    · rwa [hcfg]
  refine ⟨_, exec_read_completed (st := st) (off := off) hk ?_ ?_ ?_ ?_ ?_, congrArg Answer.ok hread⟩
  · rwa [hcfg]
  · rw [hcfg, hgates.pms]
    exact hp'
  · rw [hcfg, hgates.translate]
    exact ht'
  · rw [hgates.shut]
    exact hshut'
  · rw [hgates.cstate]
    exact hstate'

end Sys2Proof.Machine
end

section
/-! Proofs of the residency after a completed access (42_translation R96, 45_lock_preload_autoload R125): the page of a
miss and the ranges of the autoload sections that match. -/

namespace Sys2Proof.Machine

/-! ## The cache of a completed access -/

/-- A device that agrees outside one cache and the status bits is the old one with these two replaced. -/
theorem CacheOnly.eq_setCache {c : CacheId} {d d' : Device} (h : CacheOnly c d d') :
    d' = (d.setCache c (d'.cache c)).setIntSt d'.intSt := by
  obtain ⟨hmmu, hipms, hdpms, hvaddr, hcode, hcontent, hena, hother, _⟩ := h
  cases d'
  cases c with
  | icache =>
    have := hother .dcache (by decide)
    simp_all [Device.setIntSt, Device.setCache, Device.cache]
  | dcache =>
    have := hother .icache (by decide)
    simp_all [Device.setIntSt, Device.setCache, Device.cache]

/-- RECORD changes the counters of its cache and nothing else of it (46_access_counters R130). -/
theorem record_cache (c : CacheId) (hit : Bool) (st : StoreId) (d : Device) :
    (record c hit st d).cache c = { d.cache c with
      acsCnt := ((record c hit st d).cache c).acsCnt
      missCnt := ((record c hit st d).cache c).missCnt
      psramMissCnt := ((record c hit st d).cache c).psramMissCnt } := by
  cases hit with
  | true => simp [record, countAccess]
  | false =>
    cases c with
    | icache => simp [record, countMiss, countAccess]
    | dcache => cases st <;> simp [record, countMiss, countPsramMiss, countAccess, Device.cache, Device.setCache]

/-- A completed access changes the counters and the residency of its cache and nothing else of it. -/
theorem account_cache (p : Params) (c : CacheId) (va : Word) (st : StoreId) (d : Device) :
    (account p c va st d).cache c = { d.cache c with
      resident := ((account p c va st d).cache c).resident
      acsCnt := ((account p c va st d).cache c).acsCnt
      missCnt := ((account p c va st d).cache c).missCnt
      psramMissCnt := ((account p c va st d).cache c).psramMissCnt } := by
  rw [account_cache_same rfl, record_cache]

/-! ## What makes a page resident -/

/-- Two devices whose cache c is in the same state and has the same autoload sections. -/
structure AutoloadAlike (c : CacheId) (d e : Device) : Prop where
  cstate : (e.cache c).cstate = (d.cache c).cstate
  section_eq : ∀ k, (e.cache c).al k = (d.cache c).al k

theorem AutoloadAlike.trans {c : CacheId} {d e f : Device} (h : AutoloadAlike c d e) (g : AutoloadAlike c e f) :
    AutoloadAlike c d f :=
  ⟨g.cstate.trans h.cstate, fun k => (g.section_eq k).trans (h.section_eq k)⟩

/-- The residency of a cache is no part of its autoload sections. -/
theorem AutoloadAlike.resident (c : CacheId) (d : Device) (r : BitVec 512) :
    AutoloadAlike c d (d.setCache c { d.cache c with resident := r }) := by
  refine ⟨by rw [Device.cache_setCache_same], fun k => ?_⟩
  rw [Device.cache_setCache_same]
  cases k <;> rfl

theorem AutoloadAlike.record (c : CacheId) (hit : Bool) (st : StoreId) (d : Device) :
    AutoloadAlike c d (record c hit st d) := by
  refine ⟨by rw [record_cache], fun k => ?_⟩
  rw [record_cache]
  cases k <;> rfl

theorem AutoloadAlike.fillOnMiss (c : CacheId) (q : Nat) (hit : Bool) (d : Device) :
    AutoloadAlike c d (fillOnMiss c q hit d) := by
  unfold Machine.fillOnMiss
  split
  · exact .resident ..
  · exact ⟨rfl, fun _ => rfl⟩

theorem AutoloadAlike.autoloadSection (p : Params) (c : CacheId) (k : Sec) (va : Word) (hit : Bool) (d : Device) :
    AutoloadAlike c d (autoloadSection p c k va hit d) := by
  unfold Machine.autoloadSection
  dsimp only
  split
  · exact .resident ..
  · exact ⟨rfl, fun _ => rfl⟩

/-- An access at va loads the range of section k: the section is armed, holds the address and its trigger matches
(45_lock_preload_autoload R125). -/
def AutoloadSection.Matches (l : AutoloadSection) (va : Word) (hit : Bool) : Prop :=
  l.ena = true ∧ l.range.start.toNat ≤ va.toNat ∧ va.toNat < l.range.start.toNat + l.range.size.toNat ∧
    trigMatch l.trig hit = true

/-- Fill on miss makes the page of a miss resident, in Enabled (42_translation R96). -/
theorem residentAt_fillOnMiss (c : CacheId) (q : Nat) (hit : Bool) (d : Device) (q' : Nat) :
    (fillOnMiss c q hit d).residentAt c q' = true ↔ d.residentAt c q' = true ∨
      ((d.cache c).cstate = .enabled ∧ q' < 512 ∧ hit = false ∧ q' = q) := by
  unfold fillOnMiss
  split_ifs with h
  · simp [Device.residentAt, h.1, h.2, and_comm]
  · exact ⟨Or.inl, fun hq => hq.resolve_right fun ⟨hstate, _, hhit, _⟩ => h ⟨hhit, hstate⟩⟩

/-- A matching section makes the pages of its range resident, in Enabled (45_lock_preload_autoload R125). -/
theorem residentAt_autoloadSection (p : Params) (c : CacheId) (k : Sec) (va : Word) (hit : Bool) (d : Device)
    (q' : Nat) :
    (autoloadSection p c k va hit d).residentAt c q' = true ↔ d.residentAt c q' = true ∨
      ((d.cache c).cstate = .enabled ∧ q' < 512 ∧ ((d.cache c).al k).Matches va hit ∧
        q' ∈ pages p c ((d.cache c).al k).range) := by
  unfold autoloadSection
  dsimp only
  split_ifs with h
  · obtain ⟨hena, hlow, hhigh, htrig, hstate⟩ := h
    have hmatch : ((d.cache c).al k).Matches va hit := ⟨hena, hlow, hhigh, htrig⟩
    rw [Device.residentAt, Device.cache_setCache_same, getLsbD_loadRange, mem_pages]
    simp [Device.residentAt, hmatch, hstate, and_comm]
  · exact ⟨Or.inl, fun hq => hq.resolve_right fun ⟨hstate, _, ⟨hena, hlow, hhigh, htrig⟩, _⟩ =>
      h ⟨hena, hlow, hhigh, htrig, hstate⟩⟩

/-- What a completed access makes resident: the page of a miss, and the range of every matching section
(42_translation R96, 45_lock_preload_autoload R125). -/
theorem residentAt_account {p : Params} {c : CacheId} {va : Word} {st : StoreId} {d : Device} {hit : Bool} {q : Nat}
    (hq : q = pageIndex p c va.toNat) (hh : hit = d.residentAt c q) (q' : Nat) :
    (account p c va st d).residentAt c q' = true ↔ d.residentAt c q' = true ∨
      ((d.cache c).cstate = .enabled ∧ q' < 512 ∧ ((hit = false ∧ q' = q) ∨
        ∃ j, ((d.cache c).al j).Matches va hit ∧ q' ∈ pages p c ((d.cache c).al j).range)) := by
  have hrecord := AutoloadAlike.record c hit st d
  have hfill := hrecord.trans (.fillOnMiss c q hit _)
  have hfirst := hfill.trans (.autoloadSection p c .s0 va hit _)
  have hresident : (record c hit st d).residentAt c q' = d.residentAt c q' := by
    rw [Device.residentAt, record_resident, Device.residentAt]
  have hstages : account p c va st d =
      autoloadSection p c .s1 va hit (autoloadSection p c .s0 va hit (fillOnMiss c q hit (record c hit st d))) := by
    subst hh hq
    rfl
  rw [hstages, residentAt_autoloadSection, residentAt_autoloadSection, residentAt_fillOnMiss, hresident, hrecord.cstate,
    hfill.cstate, hfirst.cstate, hfill.section_eq, hfirst.section_eq]
  have hboth : ∀ P : Sec → Prop, (∃ j, P j) ↔ P .s0 ∨ P .s1 := fun P =>
    ⟨fun ⟨j, hj⟩ => by cases j <;> simp [hj], fun h => h.elim (⟨_, ·⟩) (⟨_, ·⟩)⟩
  rw [hboth]
  tauto

/-- TRIG_MATCH written out: 0 and 3 on a miss, 1 on a hit, 2 on both (10_state R37). -/
theorem trigMatch_eq_true : ∀ (t : BitVec 2) (hit : Bool), trigMatch t hit = true ↔
    (t = 0#2 ∧ hit = false) ∨ (t = 1#2 ∧ hit = true) ∨ t = 2#2 ∨ (t = 3#2 ∧ hit = false) := by
  decide

/-- Settles O47: the access that answers Ok is the completed one (`bus_completed`); its frame is `CacheOnly.account` with
`account_cache`, its pages are `residentAt_account`. -/
theorem completedAccessFillsAndAutoloads : Obligations.CompletedAccessFillsAndAutoloads := by
  intro s t b k w va len wdata data hit q hexec hok hq hhit
  obtain ⟨st, off, _, _, _, _, rfl⟩ := bus_completed hexec hok
  rw [completeAccess_dev]
  constructor
  · have hframe := (CacheOnly.account s.cfg b.cache va st s.dev).eq_setCache
    rw [account_cache] at hframe
    exact hframe
  · intro q'
    rw [residentAt_account hq hhit]
    simp only [AutoloadSection.Matches, trigMatch_eq_true, and_assoc]

end Sys2Proof.Machine
end

section
/-! Proofs of the whole-machine rules: what an instruction can do to the device (`exec_deviceChange`) and to the stores
(`exec_stores`), and what follows for every step: the invariant, the locked pages (45 R128), the locked permission tables
(43 R107), the status bits (10_state R44), the counters (46 R133), the stores (20_memory R58) and repeated reads (R57). -/

namespace Sys2Proof.Machine

/-! ## What an instruction can do to the device -/

/-- What the instruction i can make of the device in the state s, by the part of the device it touches.
`exec_deviceChange` ties it to the model. -/
inductive DeviceChange (i : Instr) (s : State) : Device → Prop
  | none : DeviceChange i s s.dev
  | cacheReg (c : CacheId) (r : BlockReg) (v : Word) (hr : isPmsReg r = false) :
      DeviceChange i s (writeBlock s.cfg c r v s.dev)
  | pmsReg (c : CacheId) (r : BlockReg) (v : Word) (hr : isPmsReg r = true) :
      DeviceChange i s (writeBlock s.cfg c r v s.dev)
  | acknowledge (w : Nat) (v : Word) (he : encode i = .wr w 0x100#12 v) : DeviceChange i s (clearStatus v s.dev)
  | enables (v : Word) : DeviceChange i s (writeIntEna v s.dev)
  | entry (n : Nat) (e : MmuEntry) : DeviceChange i s (s.dev.setEntry n e)
  | gateFault (b : Bus) (w : World) (k : AccessClass) (va : Word) (q : Nat) :
      DeviceChange i s (pmsFault b w k va q s.dev)
  | tableFault (c : CacheId) (va : Word) (q : Nat) (hq : q < 512) : DeviceChange i s (mmuFault c va q s.dev)
  | access (c : CacheId) (va : Word) (st : StoreId) : DeviceChange i s (account s.cfg c va st s.dev)
  | evict (c : CacheId) (q : Nat) (hq : pinned s.cfg c (s.dev.cache c) q = false) :
      DeviceChange i s (s.dev.setCache c
        { s.dev.cache c with resident := clearResident (s.dev.cache c).resident q })
  | reset (hi : i = .reset) : DeviceChange i s (Device.reset s.cfg)

/-- A register write changes the device in the part its register stands for. -/
theorem deviceChange_writeReg {i : Instr} {w : Nat} {off : BitVec 12} {v : Word} (he : encode i = .wr w off v)
    (ha : alignedOffset off = true) (s : State) : DeviceChange i s (writeReg s.cfg (regAt off) v s.dev) := by
  cases hr : regAt off with
  | none => exact .none
  | some r =>
    obtain rfl := regOffset_of_regAt hr ha
    cases r with
    | block c r =>
      cases hp : isPmsReg r with
      | true => exact .pmsReg c r v hp
      | false => exact .cacheReg c r v hp
    | intSt => exact .acknowledge w v he
    | intEna => exact .enables v
    | faultVaddr | faultInfo => exact .none
    | mmuEntry n => exact .entry ..

/-- A bus access changes the device by a fault it latches or by its account (42_translation R95). -/
theorem deviceChange_busAccess {i : Instr} {b : Bus} {w : World} {k : AccessClass} {va : Word} {len : Nat}
    {wdata : List Byte} {s t : State} (h : busAccess b w k va len wdata s = .next t) : DeviceChange i s t.dev := by
  obtain rfl | ⟨_, _, rfl⟩ | ⟨hr, _, _, rfl⟩ | ⟨st, off, _, _, _, ⟨a, _, rfl⟩ | ⟨_, rfl⟩⟩ := busAccess_cases h
  · exact .none
  · exact .gateFault ..
  · exact .tableFault _ _ _ (routed_page hr).2
  · exact .none
  · rw [completeAccess_dev]
    exact .access ..

/-- Every instruction that answers a next state changes the device as `DeviceChange` says. -/
theorem exec_deviceChange {i : Instr} {s t : State} (h : exec i s = .next t) : DeviceChange i s t.dev := by
  obtain ⟨_, _, _, _, rfl⟩ | ⟨_, _, _, he, ha, rfl⟩ | ⟨_, _, ⟨_, rfl⟩ | ⟨_, rfl⟩⟩ |
    ⟨_, _, _, _, ⟨_, rfl⟩ | ⟨_, rfl⟩⟩ | ⟨_, _, _, _, _, hbus⟩ | ⟨c, p, _, _, hpin, _, rfl⟩ | ⟨hreset, rfl⟩ := exec_cases h
  · exact .none
  · exact deviceChange_writeReg he ha s
  · exact .none
  · exact .none
  · exact .none
  · exact .entry ..
  · exact deviceChange_busAccess hbus
  · exact .evict c p.toNat hpin
  · exact .reset (encode_eq_reset hreset)

/-! ## Locked pages -/

/-- INVALIDATE keeps the pinned pages of every cache, and a write of 0 runs no command (45_lock_preload_autoload R126). -/
theorem residentAt_writeSyncCtrl {p : Params} {c : CacheId} {d : Device} {q : Nat}
    (hpin : pinned p c (d.cache c) q = true) (hres : d.residentAt c q = true) (v : Word) :
    (writeSyncCtrl p c v d).residentAt c q = true := by
  unfold writeSyncCtrl trigger
  split_ifs
  · exact (residentAt_cmdInvalidate p c d q).2 ⟨hres, (pinned_iff ..).1 hpin⟩
  · exact hres

/-- No change but RESET makes a pinned page leave its cache (45_lock_preload_autoload R128). -/
theorem DeviceChange.keeps_pinned {i : Instr} {s : State} {d : Device} (h : DeviceChange i s d) (hi : i ≠ .reset)
    {c : CacheId} {q : Nat} (hpin : pinned s.cfg c (s.dev.cache c) q = true) (hres : s.dev.residentAt c q = true) :
    d.residentAt c q = true := by
  cases h with
  | none => exact hres
  | cacheReg c' r v hr =>
    by_cases hc : c = c'
    · subst hc
      by_cases hsync : r = .syncCtrl
      · subst hsync
        exact residentAt_writeSyncCtrl hpin hres v
      · exact (Grows.writeBlock s.cfg c r v s.dev hr hsync).keeps q hres
    · exact (Grows.of_cacheOnly (CacheOnly.writeBlock s.cfg c' r v s.dev hr) hc).keeps q hres
  | pmsReg c' r v hr =>
    obtain ⟨x, hx, _⟩ := writeBlock_pms s.cfg c' r v s.dev hr
    rw [hx, Device.residentAt, Device.setPms_cache]
    exact hres
  | acknowledge w v _ => rwa [Device.residentAt, clearStatus_cache]
  | enables v => rwa [Device.residentAt, writeIntEna_cache]
  | entry n e => rwa [Device.residentAt, Device.setEntry_cache]
  | gateFault b w k va q' => rwa [Device.residentAt, pmsFault, latch_cache]
  | tableFault c' va q' _ => rwa [Device.residentAt, mmuFault, latch_cache]
  | access c' va st =>
    by_cases hc : c = c'
    · subst hc
      exact (Grows.account ..).keeps q hres
    · exact (Grows.of_cacheOnly (CacheOnly.account ..) hc).keeps q hres
  | evict c' q' hq' =>
    by_cases hc : c = c'
    · subst hc
      have hne : q ≠ q' := by
        rintro rfl
        exact Bool.eq_false_iff.1 hq' hpin
      rw [Device.residentAt, Device.cache_setCache_same]
      simpa [Device.residentAt, hne] using hres
    · exact (Grows.of_cacheOnly (CacheOnly.setCache ..) hc).keeps q hres
  | reset hreset => exact absurd hreset hi

/-- Settles O54: a page of a locked section's range is pinned, and `DeviceChange.keeps_pinned`. -/
theorem lockedPagesStayResident : Obligations.LockedPagesStayResident := by
  intro i s t c k q hexec hi hena hq hres
  exact (exec_deviceChange hexec).keeps_pinned hi ((pinned_iff ..).2 ⟨k, hena, hq⟩) hres

/-! ## Locked permission tables and status bits -/

/-- Everything but a permission register and RESET leaves both permission tables. -/
theorem DeviceChange.pms_of_locked {i : Instr} {s : State} {d : Device} (h : DeviceChange i s d) (hi : i ≠ .reset)
    {b : Bus} (hlock : (s.dev.pms b).lock ≠ 0#3) :
    (d.pms b).rules = (s.dev.pms b).rules ∧
      ∀ n, (s.dev.pms b).lock.getLsbD n = true → (d.pms b).lock.getLsbD n = true := by
  have of_eq : ∀ {e : Device}, e.pms b = s.dev.pms b → (e.pms b).rules = (s.dev.pms b).rules ∧
      ∀ n, (s.dev.pms b).lock.getLsbD n = true → (e.pms b).lock.getLsbD n = true := by
    intro e he
    rw [he]
    exact ⟨rfl, fun _ hn => hn⟩
  cases h with
  | none => exact of_eq rfl
  | cacheReg c r v hr => exact of_eq ((CacheOnly.writeBlock s.cfg c r v s.dev hr).pms b)
  | pmsReg c r v hr =>
    obtain ⟨x, hx, hsticky, hrules, _⟩ := writeBlock_pms s.cfg c r v s.dev hr
    rw [hx, Device.pms_setPms]
    split_ifs with hb
    · subst hb
      exact ⟨hrules hlock, hsticky⟩
    · exact ⟨rfl, fun _ hn => hn⟩
  | acknowledge w v _ => exact of_eq (clearStatus_pms ..)
  | enables v => exact of_eq (writeIntEna_pms ..)
  | entry n e => exact of_eq (Device.setEntry_pms ..)
  | gateFault b' w k va q => exact of_eq (latch_pms ..)
  | tableFault c va q _ => exact of_eq (latch_pms ..)
  | access c va st => exact of_eq ((CacheOnly.account ..).pms b)
  | evict c q _ => exact of_eq (Device.setCache_pms ..)
  | reset hreset => exact absurd hreset hi

/-- A step whose event is not the reset input runs no RESET. -/
theorem ne_reset_of_decode {s : State} {tr : Transaction} {i : Instr} (hf : fetch s = some (.op tr))
    (hd : decode tr = .ok i) (hreset : fetch s ≠ some (.op .reset)) : i ≠ .reset := by
  rintro rfl
  exact hreset (hf.trans (congrArg (some ∘ Event.op) (names_of_decode hd).encode.symm))

/-- Settles O33: a store write leaves the device, and an instruction but RESET a locked table
(`DeviceChange.pms_of_locked`). -/
theorem lockedPermissionTableIsFrozen : Obligations.LockedPermissionTableIsFrozen := by
  intro s t b hstep hreset hlock
  obtain ⟨_, ⟨st, off, bytes, _, rfl⟩ | ⟨tr, i, s', hf, hd, hexec, rfl⟩⟩ := step_cases hstep
  · rw [advance_dev, memWrite_dev]
    exact ⟨rfl, fun _ hn => hn⟩
  · exact (exec_deviceChange hexec).pms_of_locked (ne_reset_of_decode hf hd hreset) hlock

/-- A status bit is cleared by RESET or by a write of 1 to it in INT_ST (10_state R44, 60_exceptions R145). -/
theorem DeviceChange.status_cleared {i : Instr} {s : State} {d : Device} (h : DeviceChange i s d) {n : Nat}
    (hset : s.dev.intSt.getLsbD n = true) (hclear : d.intSt.getLsbD n = false) :
    i = .reset ∨ ∃ w v, encode i = .wr w 0x100#12 v ∧ v.getLsbD n = true := by
  have kept : ∀ {e : Device}, e.intSt.getLsbD n = true → e.intSt.getLsbD n ≠ false := fun he hf =>
    Bool.eq_false_iff.1 hf he
  cases h with
  | none => exact absurd hclear (kept hset)
  | cacheReg c r v hr => exact absurd hclear (kept ((CacheOnly.writeBlock s.cfg c r v s.dev hr).status n hset))
  | pmsReg c r v hr =>
    obtain ⟨x, hx, _⟩ := writeBlock_pms s.cfg c r v s.dev hr
    rw [hx, Device.setPms_intSt] at hclear
    exact absurd hclear (kept hset)
  | acknowledge w v he =>
    rw [getLsbD_clearStatus, hset, Bool.true_and] at hclear
    exact .inr ⟨w, v, he, by simpa using hclear⟩
  | enables v => exact absurd hclear (kept hset)
  | entry m e => exact absurd hclear (kept hset)
  | gateFault b w k va q | tableFault c va q _ =>
    refine absurd hclear (kept ?_)
    exact (CacheOnly.setStatus .icache _ s.dev).status n hset
  | access c va st => exact absurd hclear (kept ((CacheOnly.account ..).status n hset))
  | evict c q _ =>
    rw [Device.setCache_intSt] at hclear
    exact absurd hclear (kept hset)
  | reset hi => exact .inl hi

/-- A register write the decoder accepts is 32 bits wide (20_memory R54). -/
theorem width_of_decode_wr {w : Nat} {off : BitVec 12} {v : Word} {i : Instr} (h : decode (.wr w off v) = .ok i) :
    w = 32 :=
  (checkRegister_eq_ok h).1

/-- Settles O39: a store write leaves the device; an instruction that clears the bit is RESET or the write
(`DeviceChange.status_cleared`), and the decoder accepts the write in 32 bits only. -/
theorem statusBitsClearOnlyBySoftware : Obligations.StatusBitsClearOnlyBySoftware := by
  intro s t n hstep hset hclear
  obtain ⟨_, ⟨st, off, bytes, _, rfl⟩ | ⟨tr, i, s', hf, hd, hexec, rfl⟩⟩ := step_cases hstep
  · rw [advance_dev, memWrite_dev, hset] at hclear
    cases hclear
  · have htr : encode i = tr := (names_of_decode hd).encode
    obtain rfl | ⟨w, v, he, hbit⟩ := (exec_deviceChange hexec).status_cleared hset hclear
    · exact .inl (hf.trans (congrArg (some ∘ Event.op) htr.symm))
    · obtain rfl : tr = .wr w 0x100#12 v := htr.symm.trans he
      obtain rfl := width_of_decode_wr hd
      exact .inr ⟨v, hf, hbit⟩

end Sys2Proof.Machine
end

section
/-! Proofs of the machine invariant (10_state R26, R27, 30_encoding R70, 45 R117), of the counters' bound (46 R133), of
what changes a store (20_memory R58) and of repeated reads (20_memory R57). -/

namespace Sys2Proof.Machine

/-! ## Counters and captured ranges over a register write -/

/-- The three counters of a cache (10_state R26). -/
def CacheState.counts (x : CacheState) : Word × Word × Word :=
  (x.acsCnt, x.missCnt, x.psramMissCnt)

/-- A cache may become another by a register write: its counters stay or are cleared, and the captured ranges of its
locked and armed sections stay valid. -/
structure WrittenCache (p : Params) (c : CacheId) (x y : CacheState) : Prop where
  counts : y.counts = x.counts ∨ y.counts = (0#32, 0#32, 0#32)
  ranges : capturedRangesValid p c x → capturedRangesValid p c y

/-- A write that touches neither counters nor sections. -/
theorem WrittenCache.of_eq {p : Params} {c : CacheId} {x y : CacheState} (hcounts : y.counts = x.counts)
    (hlock0 : y.lock0 = x.lock0) (hlock1 : y.lock1 = x.lock1) (hal0 : y.al0 = x.al0) (hal1 : y.al1 = x.al1) :
    WrittenCache p c x y := by
  refine ⟨.inl hcounts, fun h => ?_⟩
  unfold capturedRangesValid
  rwa [hlock0, hlock1, hal0, hal1]

/-- A lock section that is locked after its enable was written holds a valid range. -/
theorem LockSection.written_valid {p : Params} {c : CacheId} {l : LockSection}
    (h : l.ena = true → validRange p c l.range = true) (bit : Bool) :
    (l.written p c bit).ena = true → validRange p c (l.written p c bit).range = true := by
  unfold LockSection.written
  split_ifs with _ _ hvalid
  · exact h
  · exact nofun
  · exact fun _ => hvalid
  · exact h

/-- An autoload section that is armed after its enable was written holds a valid range. -/
theorem AutoloadSection.written_valid {p : Params} {c : CacheId} {l : AutoloadSection}
    (h : l.ena = true → validRange p c l.range = true) (bit : Bool) :
    (l.written p c bit).ena = true → validRange p c (l.written p c bit).range = true := by
  unfold AutoloadSection.written
  split_ifs with _ _ hvalid
  · exact h
  · exact nofun
  · exact fun _ => hvalid
  · exact h

/-- A write to a cache register of block c makes a written cache of cache c. -/
theorem writtenCache_writeBlock (p : Params) (c : CacheId) (r : BlockReg) (v : Word) (d : Device)
    (hr : isPmsReg r = false) : WrittenCache p c (d.cache c) ((writeBlock p c r v d).cache c) := by
  cases r with
  | ctrl =>
    rw [writeBlock, writeCtrl_eq, Device.cache_setCache_same]
    exact .of_eq rfl rfl rfl rfl rfl
  | freeze =>
    rw [writeBlock, writeFreeze_eq, Device.cache_setCache_same]
    exact .of_eq rfl rfl rfl rfl rfl
  | lockCtrl =>
    rw [writeBlock, writeLockCtrl_eq, Device.setIntSt_cache, Device.cache_setCache_same]
    exact ⟨.inl rfl, fun ⟨h0, h1, h2, h3⟩ => ⟨LockSection.written_valid h0 _, LockSection.written_valid h1 _, h2, h3⟩⟩
  | lockAddr k | lockSize k => cases c <;> cases k <;> exact ⟨.inl rfl, id⟩
  | preloadCtrl =>
    rw [writeBlock, writePreloadCtrl, trigger]
    split_ifs
    · rw [cmdPreload_eq]
      cases c <;> exact .of_eq rfl rfl rfl rfl rfl
    · rw [Device.cache_setCache_same]
      exact .of_eq rfl rfl rfl rfl rfl
  | preloadAddr | preloadSize => cases c <;> exact .of_eq rfl rfl rfl rfl rfl
  | autoloadCtrl =>
    rw [writeBlock, writeAutoloadCtrl_eq, Device.setIntSt_cache, Device.cache_setCache_same]
    exact ⟨.inl rfl, fun ⟨h0, h1, h2, h3⟩ => ⟨h0, h1,
      AutoloadSection.written_valid (l := { (d.cache c).al0 with trig := v.extractLsb' 4 2 }) h2 _,
      AutoloadSection.written_valid (l := { (d.cache c).al1 with trig := v.extractLsb' 6 2 }) h3 _⟩⟩
  | autoloadAddr k | autoloadSize k => cases c <;> cases k <;> exact ⟨.inl rfl, id⟩
  | syncCtrl =>
    rw [writeBlock, writeSyncCtrl, trigger]
    split_ifs
    · rw [cmdInvalidate, Device.cache_setCache_same]
      exact .of_eq rfl rfl rfl rfl rfl
    · exact .of_eq rfl rfl rfl rfl rfl
  | cntCtrl =>
    rw [writeBlock, writeCntCtrl, trigger]
    split_ifs
    · rw [cmdCntClr, Device.cache_setCache_same]
      exact ⟨.inr rfl, id⟩
    · exact .of_eq rfl rfl rfl rfl rfl
  | acsCnt | missCnt | psramMissCnt => exact .of_eq rfl rfl rfl rfl rfl
  | pmsBoundary k | pmsAttr k | pmsLock => cases hr

/-- What an instruction may make of cache c: a written cache of it, the cache of a completed access, the reset cache, or
one that differs in its residency alone. -/
theorem DeviceChange.cache_cases {i : Instr} {s : State} {d : Device} (h : DeviceChange i s d) (c : CacheId) :
    WrittenCache s.cfg c (s.dev.cache c) (d.cache c) ∨
      (∃ va st, d.cache c = (account s.cfg c va st s.dev).cache c) ∨ d.cache c = CacheState.reset := by
  have same : ∀ {x : CacheState}, x = s.dev.cache c → WrittenCache s.cfg c (s.dev.cache c) x := by
    rintro x rfl
    exact .of_eq rfl rfl rfl rfl rfl
  cases h with
  | none => exact .inl (same rfl)
  | cacheReg c' r v hr =>
    by_cases hc : c = c'
    · subst hc
      exact .inl (writtenCache_writeBlock s.cfg c r v s.dev hr)
    · exact .inl (same ((CacheOnly.writeBlock s.cfg c' r v s.dev hr).other c hc))
  | pmsReg c' r v hr =>
    obtain ⟨x, hx, _⟩ := writeBlock_pms s.cfg c' r v s.dev hr
    rw [hx, Device.setPms_cache]
    exact .inl (same rfl)
  | acknowledge w v _ => exact .inl (same (clearStatus_cache ..))
  | enables v => exact .inl (same (writeIntEna_cache ..))
  | entry n e => exact .inl (same (Device.setEntry_cache ..))
  | gateFault b w k va q => exact .inl (same (latch_cache ..))
  | tableFault c' va q _ => exact .inl (same (latch_cache ..))
  | access c' va st =>
    by_cases hc : c = c'
    · subst hc
      exact .inr (.inl ⟨va, st, rfl⟩)
    · exact .inl (same ((CacheOnly.account ..).other c hc))
  | evict c' q _ =>
    rw [Device.cache_setCache]
    split_ifs with hc
    · subst hc
      exact .inl (.of_eq rfl rfl rfl rfl rfl)
    · exact .inl (same rfl)
  | reset _ => exact .inr (.inr (cache_reset ..))

/-! ## The counters -/

/-- A completed access counts at most one miss, and one access (46_access_counters R130). -/
theorem countsConsistent_account {p : Params} {c : CacheId} {d : Device} (h : countsConsistent (d.cache c))
    (hmax : (d.cache c).acsCnt ≠ 0xFFFFFFFF#32) (va : Word) (st : StoreId) :
    countsConsistent ((account p c va st d).cache c) := by
  obtain ⟨hacs, hmiss, hpsram⟩ := account_counts (p := p) (va := va) (st := st) (d := d) rfl c
  have hbelow : (d.cache c).acsCnt.toNat ≠ 4294967295 := fun heq => hmax (BitVec.eq_of_toNat_eq heq)
  have hlt := (d.cache c).acsCnt.isLt
  unfold countsConsistent at *
  rw [hacs, hmiss, hpsram, apply_ite BitVec.toNat, apply_ite BitVec.toNat, apply_ite BitVec.toNat]
  simp only [satInc_toNat]
  split_ifs with hm hp hp
  · obtain ⟨_, _, rfl | rfl⟩ := hm
    · cases hp.2.2.1
    · cases hp.2.2.2
  · omega
  · omega
  · omega

/-- Settles O29: a written cache keeps its counters or clears them, the reset cache has none, and a completed access keeps
the bound (`countsConsistent_account`). -/
theorem missesStayWithinAccesses : Obligations.MissesStayWithinAccesses := by
  intro i s t c hexec hcounts hmax
  obtain ⟨hkept | hzero, _⟩ | ⟨va, st, haccount⟩ | hreset := (exec_deviceChange hexec).cache_cases c
  · obtain ⟨hacs, hmiss, hpsram⟩ : _ ∧ _ ∧ _ := by simpa [CacheState.counts] using hkept
    rwa [countsConsistent, hacs, hmiss, hpsram]
  · obtain ⟨hacs, hmiss, hpsram⟩ : _ ∧ _ ∧ _ := by simpa [CacheState.counts] using hzero
    rw [countsConsistent, hacs, hmiss, hpsram]
    decide
  · rw [haccount]
    exact countsConsistent_account hcounts hmax va st
  · rw [hreset]
    unfold countsConsistent
    decide

/-! ## What an instruction can do to the stores -/

/-- The class of a request whose access is a write (30_encoding R68). -/
theorem classOf_eq_write {a : BitVec 4} (h : (classOf a).getD .read = .write) : classOf a = some .write := by
  cases hk : classOf a <;> simp_all

/-- A completed access leaves every store or is a write that stores its bytes or none (42_translation R98, R101). -/
theorem completeAccess_store (c : CacheId) (k : AccessClass) (va : Word) (len : Nat) (wdata : List Byte)
    (st : StoreId) (off : Nat) (s : State) :
    (∀ st', (completeAccess c k va len wdata st off s).store st' = s.store st') ∨
    (k = .write ∧ (completeAccess c k va len wdata st off s).answer = .ok [] ∧
      ∀ st', (completeAccess c k va len wdata st off s).store st' = (memWrite st off wdata s).store st') := by
  by_cases hk : k = .write
  · subst hk
    by_cases hf : (s.dev.cache c).cstate = .frozen ∧ (s.dev.cache c).freezeMode = false
    · refine .inl fun st' => ?_
      simp only [completeAccess, State.store_commit, writeData, if_pos hf]
    · refine .inr ⟨rfl, rfl, fun st' => ?_⟩
      simp only [completeAccess, State.store_commit, writeData, if_neg hf]
  · refine .inl fun st' => ?_
    rw [completeAccess_read hk, State.store_commit]

/-- An instruction leaves every store, or it is a bus write that answers Ok and runs MemWrite (42_translation R95). -/
theorem exec_stores {i : Instr} {s t : State} (h : exec i s = .next t) :
    (∀ st, t.store st = s.store st) ∨
    (∃ a va len wdata st off, encode i = .bus a va len wdata ∧ classOf a = some .write ∧ t.answer = .ok [] ∧
      ∀ st', t.store st' = (memWrite st off wdata s).store st') := by
  obtain ⟨_, _, _, _, rfl⟩ | ⟨_, _, _, _, _, rfl⟩ | ⟨_, _, ⟨_, rfl⟩ | ⟨_, rfl⟩⟩ |
    ⟨_, _, _, _, ⟨_, rfl⟩ | ⟨_, rfl⟩⟩ | ⟨a, va, len, wdata, he, hbus⟩ | ⟨_, _, _, _, _, _, rfl⟩ | ⟨_, rfl⟩ := exec_cases h
  case inr.inr.inr.inr.inl =>
    obtain rfl | ⟨_, _, rfl⟩ | ⟨_, _, _, rfl⟩ | ⟨st, off, _, _, _, ⟨_, _, rfl⟩ | ⟨_, rfl⟩⟩ := busAccess_cases hbus
    case inr.inr.inr.inr =>
      exact (completeAccess_store ..).imp_right fun ⟨hk, hok, hstore⟩ =>
        ⟨a, va, len, wdata, st, off, he, classOf_eq_write hk, hok, hstore⟩
    all_goals exact .inl fun st => State.store_commit ..
  all_goals exact .inl fun st => State.store_commit ..

/-- Settles O55: the environment's write is an event of its own; an instruction that changes a store is a bus write
(`exec_stores`). -/
theorem storesChangeOnlyByWrites : Obligations.StoresChangeOnlyByWrites := by
  intro s t st x hstep hchanged
  obtain ⟨_, ⟨st', off, bytes, hf, _⟩ | ⟨tr, i, s', hf, hd, hexec, rfl⟩⟩ := step_cases hstep
  · exact .inl ⟨st', off, bytes, hf⟩
  · rw [byteAt_advance] at hchanged
    obtain hkept | ⟨a, va, len, wdata, _, _, he, hclass, hok, _⟩ := exec_stores hexec
    · exact absurd (congrArg (Memory.read · x) (hkept st)) hchanged
    · obtain rfl : tr = .bus a va len wdata := (names_of_decode hd).encode.symm.trans he
      have hbits : ∀ a : BitVec 4, classOf a = some .write → a.getLsbD 1 = false ∧ a.getLsbD 0 = true := by decide
      obtain ⟨h1, h0⟩ := hbits a hclass
      exact .inr ⟨a, va, len, wdata, hf, h1, h0, hok⟩

/-! ## The invariant -/

/-- The part of the invariant that is about the device (10_state R26, R27, 30_encoding R70, R71, 45 R117).
`Inv.of_parts` ties it to the model's invariant. -/
structure DeviceInv (p : Params) (d : Device) : Prop where
  pms : ∀ b, (d.pms b).reservedClear
  ipsramCount : (d.cache .icache).psramMissCnt = 0#32
  faultCode : d.faultCode.toNat ≤ 2
  faultContent : d.faultContent.getLsbD 9 = false
  ranges : ∀ c, capturedRangesValid p c (d.cache c)

/-- A store in canonical form and inside its size (20_memory R51). -/
def StoreInv (s : State) (st : StoreId) : Prop :=
  Memory.wf (s.store st) = true ∧ Memory.below (storeSize s.cfg st) (s.store st) = true

/-- The invariant holds of the device. -/
theorem Inv.device {s : State} (h : Inv s) : DeviceInv s.cfg s.dev where
  pms b := by
    cases b
    · exact h.ipmsReserved
    · exact h.dpmsReserved
  ipsramCount := h.ipsramCount
  faultCode := h.faultCode
  faultContent := h.faultContent
  ranges c := by
    cases c
    · exact h.icacheRanges
    · exact h.dcacheRanges

/-- The invariant holds of the stores. -/
theorem Inv.stores {s : State} (h : Inv s) (st : StoreId) : StoreInv s st := by
  cases st
  · exact ⟨h.flashForm, h.flashBound⟩
  · exact ⟨h.psramForm, h.psramBound⟩

/-- The invariant from its parts. -/
theorem Inv.of_parts {s : State} (hcfg : s.cfg.valid = true) (hstores : ∀ st, StoreInv s st)
    (hdev : DeviceInv s.cfg s.dev) (hpos : s.position ≤ s.program.length) : Inv s where
  config := hcfg
  flashForm := (hstores .flash).1
  psramForm := (hstores .psram).1
  flashBound := (hstores .flash).2
  psramBound := (hstores .psram).2
  ipmsReserved := hdev.pms .ibus
  dpmsReserved := hdev.pms .dbus
  ipsramCount := hdev.ipsramCount
  faultCode := hdev.faultCode
  faultContent := hdev.faultContent
  icacheRanges := hdev.ranges .icache
  dcacheRanges := hdev.ranges .dcache
  position := hpos

/-- PMS_RESET of a valid configuration has its reserved bits clear (10_state R27). -/
theorem reservedClear_reset {p : Params} (h : p.valid = true) (b : Bus) :
    ((Device.reset p).pms b).reservedClear := by
  simp only [Params.valid, PmsReset.reservedClear, Bool.and_eq_true, beq_iff_eq, decide_eq_true_iff] at h
  obtain ⟨⟨_, ⟨hi0, hi1⟩, hi2⟩, ⟨hd0, hd1⟩, hd2⟩ := h
  cases b
  · exact ⟨hi0, hi1, hi2⟩
  · exact ⟨hd0, hd1, hd2⟩

/-- The reset device meets the invariant of the device (70_reset_and_hazards R156). -/
theorem deviceInv_reset {p : Params} (h : p.valid = true) : DeviceInv p (Device.reset p) where
  pms := reservedClear_reset h
  ipsramCount := rfl
  faultCode := Nat.zero_le _
  faultContent := BitVec.getLsbD_zero
  ranges c := by
    rw [cache_reset]
    exact ⟨nofun, nofun, nofun, nofun⟩

/-- Settles O10: the default configuration is valid, so `deviceInv_reset`; the stores and the program are empty. -/
theorem resetStateMeetsTheInvariant : Obligations.ResetStateMeetsTheInvariant := by
  have hvalid : Params.default.valid = true := by decide
  refine Inv.of_parts hvalid (fun st => ?stores) (deviceInv_reset hvalid) le_rfl
  case stores => cases st <;> exact ⟨rfl, rfl⟩

/-- The reserved bits stay clear in every permission table: only a write of a permission register and RESET touch one. -/
theorem DeviceChange.pms_reservedClear {i : Instr} {s : State} {d : Device} (h : DeviceChange i s d)
    (hcfg : s.cfg.valid = true) (hinv : DeviceInv s.cfg s.dev) (b : Bus) : (d.pms b).reservedClear := by
  have of_eq : ∀ {e : Device}, e.pms b = s.dev.pms b → (e.pms b).reservedClear := fun he => he ▸ hinv.pms b
  cases h with
  | none => exact of_eq rfl
  | cacheReg c r v hr => exact of_eq ((CacheOnly.writeBlock s.cfg c r v s.dev hr).pms b)
  | pmsReg c r v hr =>
    obtain ⟨x, hx, _, _, hreserved⟩ := writeBlock_pms s.cfg c r v s.dev hr
    rw [hx, Device.pms_setPms]
    split_ifs
    · exact hreserved (hinv.pms _)
    · exact hinv.pms b
  | acknowledge w v _ => exact of_eq (clearStatus_pms ..)
  | enables v => exact of_eq (writeIntEna_pms ..)
  | entry n e => exact of_eq (Device.setEntry_pms ..)
  | gateFault b' w k va q => exact of_eq (latch_pms ..)
  | tableFault c va q _ => exact of_eq (latch_pms ..)
  | access c va st => exact of_eq ((CacheOnly.account ..).pms b)
  | evict c q _ => exact of_eq (Device.setCache_pms ..)
  | reset _ => exact reservedClear_reset hcfg b

/-- Bit 9 of a permission fault's content is 0: the content is below 512 (30_encoding R71). -/
theorem getLsbD_nine_pmsContent (w : World) (a : BitVec 3) (k : AccessClass) (sect : Option PmsSec) (b : Bus) :
    (pmsContent w a k sect b).getLsbD 9 = false := by
  refine Nat.testBit_lt_two_pow ?_
  have ha := a.isLt
  have hsect := (sectNumber sect).isLt
  rw [pmsContent_toNat]
  cases w <;> cases k <;> cases b <;> simp [worldNumber, classNumber] <;> omega

/-- The fault record stays of a code at most 2 with content bit 9 clear: a latch writes code 1 or 2 and a content below
512 (30_encoding R70, R71). -/
theorem DeviceChange.faultRecord_inv {i : Instr} {s : State} {d : Device} (h : DeviceChange i s d)
    (hinv : DeviceInv s.cfg s.dev) : d.faultCode.toNat ≤ 2 ∧ d.faultContent.getLsbD 9 = false := by
  have of_eq : ∀ {e : Device}, e.faultRecord = s.dev.faultRecord →
      e.faultCode.toNat ≤ 2 ∧ e.faultContent.getLsbD 9 = false := by
    intro e he
    obtain ⟨_, hcode, hcontent⟩ : _ ∧ _ ∧ _ := by simpa [Device.faultRecord] using he
    rw [hcode, hcontent]
    exact ⟨hinv.faultCode, hinv.faultContent⟩
  cases h with
  | none => exact of_eq rfl
  | cacheReg c r v _ | pmsReg c r v _ => exact of_eq (writeReg_faultRecord s.cfg (some (.block c r)) v s.dev)
  | acknowledge w v _ => exact of_eq rfl
  | enables v => exact of_eq rfl
  | entry n e => exact of_eq rfl
  | gateFault b w k va q => exact ⟨le_rfl, getLsbD_nine_pmsContent ..⟩
  | tableFault c va q hq =>
    refine ⟨(by decide : (1#4).toNat ≤ 2), Nat.testBit_lt_two_pow ?_⟩
    rw [mmuFault, latch_faultContent, BitVec.toNat_ofNat]
    omega
  | access c va st => exact of_eq (CacheOnly.account ..).faultRecord
  | evict c q _ => exact of_eq (CacheOnly.setCache ..).faultRecord
  | reset _ => exact ⟨Nat.zero_le _, BitVec.getLsbD_zero⟩

/-- Every change an instruction makes keeps the invariant of the device. -/
theorem DeviceChange.deviceInv {i : Instr} {s : State} {d : Device} (h : DeviceChange i s d)
    (hcfg : s.cfg.valid = true) (hinv : DeviceInv s.cfg s.dev) : DeviceInv s.cfg d := by
  obtain ⟨hcode, hcontent⟩ := h.faultRecord_inv hinv
  refine ⟨h.pms_reservedClear hcfg hinv, ?count, hcode, hcontent, fun c => ?ranges⟩
  case count =>
    obtain ⟨hkept | hzero, _⟩ | ⟨va, st, haccount⟩ | hreset := h.cache_cases .icache
    · obtain ⟨_, _, hpsram⟩ : _ ∧ _ ∧ _ := by simpa [CacheState.counts] using hkept
      exact hpsram.trans hinv.ipsramCount
    · obtain ⟨_, _, hpsram⟩ : _ ∧ _ ∧ _ := by simpa [CacheState.counts] using hzero
      exact hpsram
    · obtain ⟨_, _, hpsram⟩ := account_counts (p := s.cfg) (va := va) (st := st) (d := s.dev) rfl .icache
      rw [haccount, hpsram, if_neg fun hd => nomatch hd.2.2.1]
      exact hinv.ipsramCount
    · rw [hreset]
      rfl
  case ranges =>
    obtain ⟨_, hranges⟩ | ⟨va, st, haccount⟩ | hreset := h.cache_cases c
    · exact hranges (hinv.ranges c)
    · rw [haccount, account_cache]
      exact hinv.ranges c
    · rw [hreset]
      exact ⟨nofun, nofun, nofun, nofun⟩

/-- MemWrite keeps both stores in canonical form and inside their sizes (20_memory R58, R59). -/
theorem storeInv_memWrite {s : State} (h : ∀ st, StoreInv s st) (st : StoreId) (off : Nat) (bytes : List Byte)
    (st' : StoreId) : StoreInv (memWrite st off bytes s) st' := by
  obtain ⟨_, heq⟩ | ⟨hin, heq⟩ := memWrite_cases st off bytes s
  · rw [heq]
    exact h st'
  · obtain ⟨hwf, hbelow⟩ := h st
    rw [StoreInv, heq, State.store_setStore, State.setStore_cfg]
    split_ifs with hst
    · subst hst
      exact ⟨Memory.wf_writeBytes _ _ _ hwf, Memory.below_writeBytes _ _ _ _ hin hbelow⟩
    · exact h st'

/-- Two states with the same parameters and the same store agree on its invariant. -/
theorem StoreInv.congr {s t : State} {st : StoreId} (h : StoreInv s st) (hcfg : t.cfg = s.cfg)
    (hstore : t.store st = s.store st) : StoreInv t st := by
  rw [StoreInv, hcfg, hstore]
  exact h

/-- Every instruction keeps both stores in canonical form and inside their sizes. -/
theorem exec_storeInv {i : Instr} {s t : State} (h : exec i s = .next t) (hinv : ∀ st, StoreInv s st) (st : StoreId) :
    StoreInv t st := by
  obtain ⟨hcfg, _⟩ := exec_frame h
  obtain hkept | ⟨_, _, _, wdata, st', off, _, _, _, hwritten⟩ := exec_stores h
  · exact (hinv st).congr hcfg (hkept st)
  · exact (storeInv_memWrite hinv st' off wdata st).congr (hcfg.trans (memWrite_cfg ..).symm) (hwritten st)

/-- A step finds an event at its position. -/
theorem position_lt_of_fetch {s : State} {e : Event} (h : fetch s = some e) : s.position < s.program.length :=
  (List.getElem?_eq_some_iff.1 h).1

/-- Settles O53: the environment's write keeps the stores' part (`storeInv_memWrite`), an instruction both parts
(`exec_storeInv`, `DeviceChange.deviceInv`), and the position stays within the program since an event was fetched. -/
theorem stepKeepsTheInvariant : Obligations.StepKeepsTheInvariant := by
  intro s t hinv hstep
  obtain ⟨hcfg, ⟨st, off, bytes, hf, rfl⟩ | ⟨tr, i, s', hf, hd, hexec, rfl⟩⟩ := step_cases hstep
  · refine Inv.of_parts ?_ (fun st' => ?_) ?_ ?_
    · simpa using hcfg
    · exact (storeInv_memWrite hinv.stores st off bytes st').congr rfl (by cases st' <;> rfl)
    · simpa using hinv.device
    · simpa using position_lt_of_fetch hf
  · obtain ⟨hcfg', hprogram, hposition, _⟩ := exec_frame hexec
    refine Inv.of_parts ?_ (fun st' => ?_) ?_ ?_
    · simpa [hcfg'] using hcfg
    · exact (exec_storeInv hexec hinv.stores st').congr rfl (by cases st' <;> rfl)
    · simpa [hcfg'] using (exec_deviceChange hexec).deviceInv hcfg hinv.device
    · simpa [hprogram, hposition] using position_lt_of_fetch hf

end Sys2Proof.Machine
end

section
/-! Proofs of repeated reads (20_memory R57): what a read answers depends on its gates, the stores, the parameters and the
draw alone, and a read changes none of them. -/

namespace Sys2Proof.Machine

section
variable {b : Bus} {w : World} {k : AccessClass} {va : Word} {len : Nat} {wdata : List Byte} {s t : State}

/-- What the stages of a read answer depends on (42_translation R95). -/
theorem gatedAccess_answer_congr (hk : k ≠ .write) (hgates : GatesAlike b.cache s.dev t.dev) (hflash : t.flash = s.flash)
    (hpsram : t.psram = s.psram) (hcfg : t.cfg = s.cfg) (hdraws : t.draws = s.draws) :
    (gatedAccess b w k va len wdata t).answer = (gatedAccess b w k va len wdata s).answer := by
  unfold gatedAccess
  dsimp only
  rw [hcfg, hgates.pms, hgates.translate, hgates.cacheRejects]
  split_ifs
  · match translate s.cfg b.cache va s.dev with
    | .rangeFault | .translationFault => rfl
    | .at st off =>
      cases cacheRejects (s.dev.cache b.cache) k with
      | some a => rfl
      | none =>
        simp only [completeAccess_read hk, State.commit_answer, readData_congr hflash hpsram hcfg hdraws]
  · rfl

/-- What a read answers depends on (42_translation R95). -/
theorem busAccess_answer_congr {s' t' : State} (hk : k ≠ .write) (hgates : GatesAlike b.cache s.dev t.dev)
    (hflash : t.flash = s.flash) (hpsram : t.psram = s.psram) (hcfg : t.cfg = s.cfg) (hdraws : t.draws = s.draws)
    (hs : busAccess b w k va len wdata s = .next s') (ht : busAccess b w k va len wdata t = .next t') :
    t'.answer = s'.answer := by
  unfold busAccess at hs ht
  rw [hcfg] at ht
  split_ifs at hs ht
  · rw [← Host.Outcome.next.inj hs, ← Host.Outcome.next.inj ht]
    rfl
  · rw [← Host.Outcome.next.inj hs, ← Host.Outcome.next.inj ht]
    exact gatedAccess_answer_congr hk hgates hflash hpsram hcfg hdraws

end

/-- A request without data that a step performs is a read or fetch: a write of no bytes is refused (42_translation
R95). -/
theorem step_of_dataless_bus {s t : State} {a : BitVec 4} {va : Word} {len : Nat}
    (hf : fetch s = some (.op (.bus a va len []))) (hstep : step s = .next t) :
    ∃ k s', classOf a = some k ∧ k ≠ .write ∧ t = advance s' ∧
      busAccess (attrBus a) (worldOf a) k va len [] s = .next s' := by
  obtain ⟨_, ⟨_, _, _, hf', _⟩ | ⟨tr, i, s', hf', hd, hexec, rfl⟩⟩ := step_cases hstep
  · cases hf.symm.trans hf'
  · obtain rfl : tr = .bus a va len [] := Event.op.inj (Option.some.inj (hf'.symm.trans hf))
    obtain ⟨k, hclass, hlen, hdata, rfl⟩ := decodeBus_eq_ok hd
    rw [exec_busRow, ← hlen, ← hdata] at hexec
    refine ⟨k, s', hclass, ?_, rfl, hexec⟩
    rintro rfl
    obtain rfl : len = 0 := hlen
    rw [busAccess, if_pos (.inl Nat.one_pos)] at hexec
    cases hexec

/-- Before an equal event a read leaves the draw, and the next event finds it (20_memory R57). -/
theorem advance_draws_of_same_event {s s' : State} {e : Event} (hf : fetch s = some e)
    (hnext : fetch (advance s') = some e) (hprogram : s'.program = s.program) (hposition : s'.position = s.position) :
    (advance s').draws = s'.draws := by
  refine nextDraw_same ?_
  rw [hprogram, hposition]
  rw [fetch, advance_program, advance_position, hprogram, hposition] at hnext
  exact hnext.trans hf.symm

/-- Settles O59: each step is a read (`step_of_dataless_bus`), which leaves what a read's answer depends on
(`busAccess_read_leaves`), the draw included since the next event is the same (`advance_draws_of_same_event`). -/
theorem identicalReadsAnswerTheSame : Obligations.IdenticalReadsAnswerTheSame := by
  intro s t u a va len hf hf' hstep hstep'
  obtain ⟨k, s', hclass, hk, rfl, hread⟩ := step_of_dataless_bus hf hstep
  obtain ⟨k', u', hclass', _, rfl, hread'⟩ := step_of_dataless_bus hf' hstep'
  obtain rfl : k = k' := Option.some.inj (hclass.symm.trans hclass')
  obtain ⟨hgates, hflash, hpsram, hcfg, hprogram, hposition, hdraws⟩ := busAccess_read_leaves hk hread
  obtain ⟨_, hflash', hpsram', _⟩ := busAccess_read_leaves hk hread'
  have hsame := advance_draws_of_same_event hf hf' hprogram hposition
  refine ⟨?answer, hflash'.trans hflash, hpsram'.trans hpsram⟩
  case answer =>
    rw [advance_answer, advance_answer]
    exact busAccess_answer_congr (t := advance s') hk hgates hflash hpsram hcfg (hsame.trans hdraws) hread hread'

end Sys2Proof.Machine
end
